-- ==== Sys2Proof/Word.lean ====
section
/-!
DEFINITION. The word types of the VZ40 and the sparse maps that State is made of.
A map is a list of key and value pairs with strictly rising keys, so that equal maps are equal lists.
`read` and `write` treat one value as the one an unlisted key holds: writing it removes the entry.
-/
namespace Sys2Proof

/-- One byte of memory. -/
abbrev Byte := BitVec 8
/-- A 16-bit field. -/
abbrev W16 := BitVec 16
/-- A lane register (R2, R7). -/
abbrev W32 := BitVec 32
/-- A scalar register, a lane pair, a code word (R7, R30). -/
abbrev W64 := BitVec 64
/-- A register field of an instruction word (R39, R40). -/
abbrev RegField := BitVec 8

/-- A sparse map with natural keys: strictly rising keys (see `SMap.sorted`). -/
abbrev SMap (β : Type) := List (Nat × β)

namespace SMap

/-- The value listed at a key. -/
def look {β : Type} : SMap β → Nat → Option β
  | [], _ => none
  | (k, v) :: m, x => if x = k then some v else look m x

/-- The map with `v` listed at `x`. -/
def ins {β : Type} : SMap β → Nat → β → SMap β
  | [], x, v => [(x, v)]
  | (k, w) :: m, x, v =>
    if x < k then (x, v) :: (k, w) :: m
    else if x = k then (x, v) :: m
    else (k, w) :: ins m x v

/-- The map with nothing listed at `x`. -/
def del {β : Type} : SMap β → Nat → SMap β
  | [], _ => []
  | (k, w) :: m, x => if x = k then del m x else (k, w) :: del m x

/-- The value at a key, where an unlisted key holds `d`. -/
def read {β : Type} (d : β) (m : SMap β) (x : Nat) : β := (look m x).getD d

/-- The map after `v` is written at `x`, where an unlisted key holds `d`. -/
def write {β : Type} [DecidableEq β] (d : β) (m : SMap β) (x : Nat) (v : β) : SMap β :=
  if v = d then del m x else ins m x v

/-- Every key of the map is above `lo`, and keys rise strictly. -/
def above {β : Type} (lo : Nat) : SMap β → Bool
  | [] => true
  | (k, _) :: m => decide (lo < k) && above k m

/-- The keys of the map rise strictly. -/
def sorted {β : Type} : SMap β → Bool
  | [] => true
  | (k, _) :: m => above k m

/-- The canonical form of a map whose unlisted keys hold `d`: keys rise strictly and no entry holds `d`. -/
def canon {β : Type} [DecidableEq β] (d : β) (m : SMap β) : Bool :=
  sorted m && m.all (fun e => decide (e.2 ≠ d))

/-- The listed keys. -/
def keys {β : Type} (m : SMap β) : List Nat := m.map Prod.fst

/-- The listed values. -/
def vals {β : Type} (m : SMap β) : List β := m.map Prod.snd

/-- One value changed where it is listed. -/
def upd {β : Type} (m : SMap β) (x : Nat) (f : β → β) : SMap β :=
  match look m x with
  | none => m
  | some v => ins m x (f v)

/-- Every listed value changed. -/
def mapV {β γ : Type} (f : Nat → β → γ) (m : SMap β) : SMap γ := m.map (fun e => (e.1, f e.1 e.2))

/-- The entries whose key and value pass a test. -/
def keep {β : Type} (f : Nat → β → Bool) (m : SMap β) : SMap β := m.filter (fun e => f e.1 e.2)

/-- The least natural above every listed key. -/
def fresh {β : Type} : SMap β → Nat
  | [] => 0
  | (k, _) :: m => Nat.max (k + 1) (fresh m)

/-- The first listed pair that passes a test. -/
def find {β : Type} (f : Nat → β → Bool) (m : SMap β) : Option (Nat × β) := m.find? (fun e => f e.1 e.2)

end SMap

/-- Lane `l` of a 32-lane mask. -/
def laneBit (m : W32) (l : Nat) : Bool := m.getLsbD l

/-- The mask of a list of lanes. -/
def maskOf (ls : List Nat) : W32 := ls.foldl (fun m l => m ||| (1#32 <<< l)) 0#32

/-- The low 32 bits of a pair. -/
def lo32 (w : W64) : W32 := w.setWidth 32
/-- The high 32 bits of a pair. -/
def hi32 (w : W64) : W32 := (w >>> 32).setWidth 32
/-- A pair from its low and high registers. -/
def pair (lo hi : W32) : W64 := (hi ++ lo : BitVec 64)

/-- The bytes of a number, least significant first (little-endian, R30). -/
def leBytes : Nat → Nat → List Byte
  | 0, _ => []
  | n + 1, x => BitVec.ofNat 8 (x % 256) :: leBytes n (x / 256)

/-- The number that bytes hold, least significant first. -/
def ofLeBytes : List Byte → Nat
  | [] => 0
  | b :: bs => b.toNat + 256 * ofLeBytes bs

/-- The naturals from `a`, `n` of them. -/
def upFrom : Nat → Nat → List Nat
  | _, 0 => []
  | a, n + 1 => a :: upFrom (a + 1) n

end Sys2Proof
end

