-- ==== Sys2Proof/Machine/Sha.lean ====
section
/-!
DEFINITION. SHA-256, by which images, checkpoints and hallmarks are checked (R24, R26, R329, R415). The spec names the algorithm; its steps
are FIPS 180-4's (assumption 9).
-/
namespace Sys2Proof.Machine

/-- The round constants. -/
def shaK : List Nat :=
  [0x428a2f98, 0x71374491, 0xb5c0fbcf, 0xe9b5dba5, 0x3956c25b, 0x59f111f1, 0x923f82a4, 0xab1c5ed5] ++
  [0xd807aa98, 0x12835b01, 0x243185be, 0x550c7dc3, 0x72be5d74, 0x80deb1fe, 0x9bdc06a7, 0xc19bf174] ++
  [0xe49b69c1, 0xefbe4786, 0x0fc19dc6, 0x240ca1cc, 0x2de92c6f, 0x4a7484aa, 0x5cb0a9dc, 0x76f988da] ++
  [0x983e5152, 0xa831c66d, 0xb00327c8, 0xbf597fc7, 0xc6e00bf3, 0xd5a79147, 0x06ca6351, 0x14292967] ++
  [0x27b70a85, 0x2e1b2138, 0x4d2c6dfc, 0x53380d13, 0x650a7354, 0x766a0abb, 0x81c2c92e, 0x92722c85] ++
  [0xa2bfe8a1, 0xa81a664b, 0xc24b8b70, 0xc76c51a3, 0xd192e819, 0xd6990624, 0xf40e3585, 0x106aa070] ++
  [0x19a4c116, 0x1e376c08, 0x2748774c, 0x34b0bcb5, 0x391c0cb3, 0x4ed8aa4a, 0x5b9cca4f, 0x682e6ff3] ++
  [0x748f82ee, 0x78a5636f, 0x84c87814, 0x8cc70208, 0x90befffa, 0xa4506ceb, 0xbef9a3f7, 0xc67178f2]

/-- The initial hash value. -/
def shaInit : List Nat :=
  [0x6a09e667, 0xbb67ae85, 0x3c6ef372, 0xa54ff53a, 0x510e527f, 0x9b05688c, 0x1f83d9ab, 0x5be0cd19]

/-- Rotation right of 32 bits. -/
def rotr (x n : Nat) : Nat := x / 2 ^ n + x % 2 ^ n * 2 ^ (32 - n)

/-- A big-endian word. -/
def beWord : List Byte → Nat
  | a :: b :: c :: d :: _ => a.toNat * 2 ^ 24 + b.toNat * 2 ^ 16 + c.toNat * 2 ^ 8 + d.toNat
  | _ => 0

/-- The message schedule, newest word first. -/
def shaSched : Nat → List Nat → List Nat
  | 0, w => w
  | n + 1, w =>
    let x := (w[14]?).getD 0
    let y := (w[1]?).getD 0
    let s0 := (rotr x 7) ^^^ (rotr x 18) ^^^ (x / 2 ^ 3)
    let s1 := (rotr y 17) ^^^ (rotr y 19) ^^^ (y / 2 ^ 10)
    shaSched n (((s1 + (w[6]?).getD 0 + s0 + (w[15]?).getD 0) % 2 ^ 32) :: w)

/-- One round. -/
def shaRound (h : List Nat) (kw : Nat × Nat) : List Nat :=
  match h with
  | [a, b, c, d, e, f, g, x] =>
    let t1 := x + ((rotr e 6) ^^^ (rotr e 11) ^^^ (rotr e 25)) + ((e &&& f) ^^^ ((2 ^ 32 - 1 - e) &&& g)) + kw.1 + kw.2
    let t2 := ((rotr a 2) ^^^ (rotr a 13) ^^^ (rotr a 22)) + ((a &&& b) ^^^ (a &&& c) ^^^ (b &&& c))
    [(t1 + t2) % 2 ^ 32, a, b, c, (d + t1) % 2 ^ 32, e, f, g]
  | _ => h

/-- One block of 64 bytes. -/
def shaBlock (h : List Nat) (b : List Byte) : List Nat :=
  let w0 := ((List.range 16).map (fun k => beWord (b.drop (4 * k)))).reverse
  let w := (shaSched 48 w0).reverse
  ((shaK.zip w).foldl shaRound h).zip h |>.map (fun p => (p.1 + p.2) % 2 ^ 32)

/-- The blocks of a padded message. -/
def shaBlocks : Nat → List Nat → List Byte → List Nat
  | 0, h, _ => h
  | n + 1, h, bs => shaBlocks n (shaBlock h (bs.take 64)) (bs.drop 64)

/-- The bytes of a number, most significant first. -/
def beBytes (n x : Nat) : List Byte := (leBytes n x).reverse

/-- SHA-256. -/
def sha256 (bs : List Byte) : List Byte :=
  let n := bs.length
  let zeros := (119 - n % 64) % 64
  let m := bs ++ [0x80] ++ List.replicate zeros 0 ++ beBytes 8 (8 * n)
  (shaBlocks (m.length / 64) shaInit m).flatMap (beBytes 4)

end Sys2Proof.Machine
end

