-- ==== Sys2Proof/Syntax.lean ====
section
/-!
DEFINITION. Syntax of the VZ40: the fields of Tecia instruction words (R37, R40, R42 to R45) and `Instr`, one constructor
for every row of the opcode table. An event is an entry of the schedule that moves the machine beside the instructions;
its arguments are what the schedule or the host supplies.
-/
namespace Sys2Proof

/-- GUARD (R37): unguarded, a predicate, or a predicate negated; code 8 is no guard. -/
inductive Guard where
  | always
  | pos (p : Fin 7)
  | neg (p : Fin 7)
  deriving DecidableEq, Repr

/-- The operand types of R42. -/
inductive Ty where
  | b32 | s32 | n32 | s64 | n64 | f32 | f16x2 | bf16x2 | f64 | s16x2 | n16x2 | s8x4 | n8x4 | b64
  deriving DecidableEq, Repr

/-- SZ (R44): the access size in bits. -/
inductive Sz where
  | z8 | z16 | z32 | z64 | z128
  deriving DecidableEq, Repr

/-- RDIST (R44): the reuse distance hint. -/
inductive Rdist where
  | near | mid | far | stream
  deriving DecidableEq, Repr

/-- ORD (R44). -/
inductive Ord where
  | rlx | acq | rel | ar
  deriving DecidableEq, Repr

/-- SCOPE (R44). -/
inductive Scope where
  | core | clus | pkg | sys
  deriving DecidableEq, Repr

/-- W (R44): a wait counter or none. -/
inductive Wctr where
  | cnt (n : Fin 6)
  | none
  deriving DecidableEq, Repr

/-- AOP (R45): the atomic operation. -/
inductive Aop where
  | add | fadd | xadd | smin | smax | umin | umax | fmin | fmax | and | or | xor | exch
  deriving DecidableEq, Repr

/-- USE (R45): the declared use of an atomic. -/
inductive Use where
  | none | unp | com | nord | qnt | spec
  deriving DecidableEq, Repr

/-- Format VR (R40). Bit i of `mod` is word bit i + 4. -/
structure Vr where
  g   : Guard
  d   : RegField
  a   : RegField
  b   : RegField
  c   : RegField
  ty  : Ty
  mod : BitVec 12
  ra  : Bool
  rb  : Bool
  rc  : Bool
  sb  : Bool
  deriving DecidableEq, Repr

/-- Formats VI and SI (R40). -/
structure Im where
  g   : Guard
  d   : RegField
  a   : RegField
  imm : W32
  ty  : Ty
  deriving DecidableEq, Repr

/-- Format SR (R40). Bit i of `mod` is word bit i. -/
structure Sr where
  g   : Guard
  d   : RegField
  a   : RegField
  b   : RegField
  c   : RegField
  ty  : Ty
  mod : W16
  deriving DecidableEq, Repr

/-- Format M (R40). -/
structure Me where
  g     : Guard
  d     : RegField
  a     : RegField
  b     : RegField
  ofs   : BitVec 13
  chk   : Bool
  sz    : Sz
  rdist : Rdist
  by_   : Bool
  ord   : Ord
  scope : Scope
  w     : Wctr
  as_   : Bool
  deriving DecidableEq, Repr

/-- Format MA (R40). -/
structure Ma where
  g     : Guard
  d     : RegField
  a     : RegField
  b     : RegField
  c     : RegField
  aop   : Aop
  use_  : Use
  scope : Scope
  ord   : Ord
  sz    : Sz
  ret   : Bool
  w     : Wctr
  as_   : Bool
  deriving DecidableEq, Repr

/-- Format E (R40). -/
structure En where
  g    : Guard
  d    : RegField
  p    : RegField
  t    : RegField
  x    : RegField
  emod : W16
  deriving DecidableEq, Repr

/-- Format C (R40). -/
structure Ct where
  g    : Guard
  d    : RegField
  off  : W32
  a    : RegField
  cmod : BitVec 4
  deriving DecidableEq, Repr

/-- Format Y (R40). -/
structure Yf where
  g    : Guard
  d    : RegField
  a    : RegField
  sel  : W16
  ymod : W16
  deriving DecidableEq, Repr

/-- An algorithm that NEGOTIATE_ALGORITHMS can name (R329): those the module offers, or any other. -/
inductive SpdmAlg where
  | rsassaPss3072 | rsassaPkcs13072 | sha256 | ffdhe3072 | aes256gcm | other
  deriving DecidableEq, Repr

/-- What a die arbiter measured of a logical cluster over a power interval (R376, R381): current in 0.01 A, junction temperature in
0.01 °C, and the activity model's projected current by level, 0.01 A. -/
structure Meas where
  clus   : Nat
  amps   : Nat
  temp   : Nat
  proj   : List Nat
  deriving DecidableEq, Repr

/-- What the controller measured of a unit over a millisecond (R403): supply in mV, temperature in 0.01 °C, activity and I/Iref in 1/1,024,
frequency in MHz; which integrators' fractions of 1/1,024 milli-rs round up; and the same at the rate of level 10 where boosted intervals
count so (R410). -/
structure WearMeas where
  unit : Nat
  mv   : Nat
  temp : Nat
  act  : Nat
  mhz  : Nat
  amps : Nat
  up   : Nat
  mv10 : Nat
  mhz10 : Nat
  amps10 : Nat
  deriving DecidableEq, Repr

/-- An error that a check of a hop finds (R384, R386): hop, kind (0 corrected, 1 uncorrectable, 2 by scrub), die, sector, unit, address. -/
structure ErrArg where
  hop    : Nat
  kind   : Nat
  die    : Nat
  sector : Nat
  unit   : Nat
  pa     : Nat
  deriving DecidableEq, Repr

/-- What the assay finds (R391, R392): a failed step; physical clusters that fail their tests; failed phases and suspect bump
groups as masks by physical cluster; calibrated minimum voltages; billets that fail their test; the log it writes; slices, bridges and ring macros, by unit id, that fail. -/
structure AssayArg where
  fail   : Option Nat
  dead   : List Nat
  phases : List (Nat × Nat)
  bumps  : List (Nat × Nat)
  vmin   : List (Nat × List Nat)
  bad    : List Nat
  log    : List (BitVec 8)
  units  : List Nat := []
  deriving DecidableEq, Repr

/-- What the residue check of an MMA pass finds (R384): `again`, a mismatch that recurs; `cured`, one that the re-execution ends. -/
structure Resid where
  again : Nat := 0
  cured : Nat := 0
  deriving DecidableEq, Repr

/-- What a billet's test finds (R392): the phases and bump groups that failed, a bit each, and the calibration VMIN(0) to VMIN(10). -/
structure BilletFound where
  phases : Nat := 0
  bumps  : Nat := 0
  vmin   : List Nat := []
  deriving DecidableEq, Repr

/-- One constructor per row of the opcode table: the 148 Tecia instructions of R46, then the 129 events by
which the device, the host and the world move the module. -/
inductive Instr where
  /-- 0x00 NOP, format SR (R48). -/
  | nop (g : Guard)
  /-- 0x01 SADD, format SR (R91). -/
  | sadd (f : Sr)
  /-- 0x02 SSUB, format SR (R91). -/
  | ssub (f : Sr)
  /-- 0x03 SMUL, format SR (R91). -/
  | smul (f : Sr)
  /-- 0x04 SMULH, format SR (R91). -/
  | smulh (f : Sr)
  /-- 0x05 SDIV, format SR (R91). -/
  | sdiv (f : Sr)
  /-- 0x06 SMIN, format SR (R91). -/
  | smin (f : Sr)
  /-- 0x07 SMAX, format SR (R91). -/
  | smax (f : Sr)
  /-- 0x08 SAND, format SR (R91). -/
  | sand (f : Sr)
  /-- 0x09 SOR, format SR (R91). -/
  | sor (f : Sr)
  /-- 0x0A SXOR, format SR (R91). -/
  | sxor (f : Sr)
  /-- 0x0B SSHL, format SR (R91). -/
  | sshl (f : Sr)
  /-- 0x0C SSHR, format SR (R91). -/
  | sshr (f : Sr)
  /-- 0x0D SBFX, format SR (R92). -/
  | sbfx (f : Sr)
  /-- 0x0E SBFI, format SR (R92). -/
  | sbfi (f : Sr)
  /-- 0x0F SCLZ, format SR (R91). -/
  | sclz (f : Sr)
  /-- 0x10 SPOPC, format SR (R91). -/
  | spopc (f : Sr)
  /-- 0x11 SSET, format SR (R91). -/
  | sset (f : Sr)
  /-- 0x12 SSEL, format SR (R91). -/
  | ssel (f : Sr)
  /-- 0x13 SMOV, format SR (R91). -/
  | smov (f : Sr)
  /-- 0x14 SMOVI, format SI (R93). -/
  | smovi (f : Im)
  /-- 0x15 SMOVHI, format SI (R93). -/
  | smovhi (f : Im)
  /-- 0x16 SADDI, format SI (R93). -/
  | saddi (f : Im)
  /-- 0x18 VRDLANE, format SR (R99). -/
  | vrdlane (f : Sr)
  /-- 0x19 VWRLANE, format SR (R99). -/
  | vwrlane (f : Sr)
  /-- 0x1A BALLOT, format SR (R98). -/
  | ballot (f : Sr)
  /-- 0x1B PFROM, format SR (R94). -/
  | pfrom (f : Sr)
  /-- 0x1C PLOG, format SR (R95). -/
  | plog (f : Sr)
  /-- 0x1D SRD, format Y (R102). -/
  | srd (f : Yf)
  /-- 0x1E SWR, format Y (R102). -/
  | swr (f : Yf)
  /-- 0x20 BRA, format C (R107). -/
  | bra (f : Ct)
  /-- 0x21 BRX, format C (R107). -/
  | brx (f : Ct)
  /-- 0x22 CALL, format C (R107). -/
  | call (f : Ct)
  /-- 0x23 CALLX, format C (R107). -/
  | callx (f : Ct)
  /-- 0x24 RET, format C (R107). -/
  | ret (f : Ct)
  /-- 0x25 MKJOIN, format SR (R100). -/
  | mkjoin (f : Sr)
  /-- 0x26 JOIN, format SR (R101). -/
  | join (f : Sr)
  /-- 0x27 EXIT, format C (R109). -/
  | exit (f : Ct)
  /-- 0x28 YIELD, format SR (R110). -/
  | yield (f : Sr)
  /-- 0x2A MBRD, format Y (R221). -/
  | mbrd (f : Yf)
  /-- 0x2B MBWR, format Y (R221). -/
  | mbwr (f : Yf)
  /-- 0x2C SLEEP, format SI (R222). -/
  | sleep (f : Im)
  /-- 0x2D EVSIG, format SI (R222). -/
  | evsig (f : Im)
  /-- 0x40 VADD, format VR (R117). -/
  | vadd (f : Vr)
  /-- 0x41 VSUB, format VR (R117). -/
  | vsub (f : Vr)
  /-- 0x42 VMUL, format VR (R117). -/
  | vmul (f : Vr)
  /-- 0x43 VMULH, format VR (R117). -/
  | vmulh (f : Vr)
  /-- 0x44 VMAD, format VR (R119). -/
  | vmad (f : Vr)
  /-- 0x45 VMIN, format VR (R117). -/
  | vmin (f : Vr)
  /-- 0x46 VMAX, format VR (R117). -/
  | vmax (f : Vr)
  /-- 0x47 VABSD, format VR (R117). -/
  | vabsd (f : Vr)
  /-- 0x48 VAND, format VR (R117). -/
  | vand (f : Vr)
  /-- 0x49 VOR, format VR (R117). -/
  | vor (f : Vr)
  /-- 0x4A VXOR, format VR (R117). -/
  | vxor (f : Vr)
  /-- 0x4B VSHL, format VR (R118). -/
  | vshl (f : Vr)
  /-- 0x4C VSHR, format VR (R118). -/
  | vshr (f : Vr)
  /-- 0x4D VBFX, format VR (R118). -/
  | vbfx (f : Vr)
  /-- 0x4E VBFI, format VR (R118). -/
  | vbfi (f : Vr)
  /-- 0x4F VCLZ, format VR (R117). -/
  | vclz (f : Vr)
  /-- 0x50 VPOPC, format VR (R117). -/
  | vpopc (f : Vr)
  /-- 0x51 VADDC, format VR (R120). -/
  | vaddc (f : Vr)
  /-- 0x52 VDOT4, format VR (R121). -/
  | vdot4 (f : Vr)
  /-- 0x53 VPERM, format VR (R122). -/
  | vperm (f : Vr)
  /-- 0x54 VSHFL, format VR (R125). -/
  | vshfl (f : Vr)
  /-- 0x55 VMBCNT, format VR (R126). -/
  | vmbcnt (f : Vr)
  /-- 0x56 VCMP, format VR (R123). -/
  | vcmp (f : Vr)
  /-- 0x57 VSEL, format VR (R123). -/
  | vsel (f : Vr)
  /-- 0x58 VMOV, format VR (R123). -/
  | vmov (f : Vr)
  /-- 0x59 VMOVI, format VI (R124). -/
  | vmovi (f : Im)
  /-- 0x5A VADDI, format VI (R124). -/
  | vaddi (f : Im)
  /-- 0x60 VFADD, format VR (R127). -/
  | vfadd (f : Vr)
  /-- 0x61 VFSUB, format VR (R127). -/
  | vfsub (f : Vr)
  /-- 0x62 VFMUL, format VR (R127). -/
  | vfmul (f : Vr)
  /-- 0x63 VFMA, format VR (R127). -/
  | vfma (f : Vr)
  /-- 0x64 VFMIN, format VR (R129). -/
  | vfmin (f : Vr)
  /-- 0x65 VFMAX, format VR (R129). -/
  | vfmax (f : Vr)
  /-- 0x66 VFSGN, format VR (R129). -/
  | vfsgn (f : Vr)
  /-- 0x67 VFCMP, format VR (R130). -/
  | vfcmp (f : Vr)
  /-- 0x68 VFCLASS, format VR (R131). -/
  | vfclass (f : Vr)
  /-- 0x69 VFRND, format VR (R132). -/
  | vfrnd (f : Vr)
  /-- 0x6A VFLDX, format VR (R133). -/
  | vfldx (f : Vr)
  /-- 0x6B VFDIV, format VR (R127). -/
  | vfdiv (f : Vr)
  /-- 0x6C VFSQRT, format VR (R127). -/
  | vfsqrt (f : Vr)
  /-- 0x6D VFRCP, format VR (R127). -/
  | vfrcp (f : Vr)
  /-- 0x6E VFRSQ, format VR (R127). -/
  | vfrsq (f : Vr)
  /-- 0x6F VFEXP2, format VR (R127). -/
  | vfexp2 (f : Vr)
  /-- 0x70 VFLOG2, format VR (R127). -/
  | vflog2 (f : Vr)
  /-- 0x71 VFTANH, format VR (R127). -/
  | vftanh (f : Vr)
  /-- 0x72 VFSIGM, format VR (R127). -/
  | vfsigm (f : Vr)
  /-- 0x78 VCVT, format VR (R134). -/
  | vcvt (f : Vr)
  /-- 0x79 VCVT8, format VR (R135). -/
  | vcvt8 (f : Vr)
  /-- 0x7A VCVTMX, format VR (R138). -/
  | vcvtmx (f : Vr)
  /-- 0xA0 LD, format M (R149). -/
  | ld (f : Me)
  /-- 0xA1 ST, format M (R150). -/
  | st (f : Me)
  /-- 0xA2 SLD, format M (R149). -/
  | sld (f : Me)
  /-- 0xA3 SST, format M (R150). -/
  | sst (f : Me)
  /-- 0xA4 LDS, format M (R149). -/
  | lds (f : Me)
  /-- 0xA5 STS, format M (R150). -/
  | sts (f : Me)
  /-- 0xA6 LDX, format M (R149). -/
  | ldx (f : Me)
  /-- 0xA7 STX, format M (R150). -/
  | stx (f : Me)
  /-- 0xA8 STCMP, format M (R153). -/
  | stcmp (f : Me)
  /-- 0xA9 LDEXP, format M (R153). -/
  | ldexp (f : Me)
  /-- 0xAA PREF, format M (R155). -/
  | pref (f : Me)
  /-- 0xAB LINV, format M (R156). -/
  | linv (f : Me)
  /-- 0xAC FENCE, format M (R157). -/
  | fence (f : Me)
  /-- 0xB0 ATOM, format MA (R158). -/
  | atom (f : Ma)
  /-- 0xB1 ACAS, format MA (R158). -/
  | acas (f : Ma)
  /-- 0xB2 ATOMS, format MA (R158). -/
  | atoms (f : Ma)
  /-- 0xB3 ACASS, format MA (R158). -/
  | acass (f : Ma)
  /-- 0xB4 XOPEN, format MA (R161). -/
  | xopen (f : Ma)
  /-- 0xB5 XCLOSE, format MA (R161). -/
  | xclose (f : Ma)
  /-- 0xD0 FLD, format E (R170). -/
  | fld (f : En)
  /-- 0xD1 FST, format E (R170). -/
  | fst (f : En)
  /-- 0xD2 MMA, format E (R174). -/
  | mma (f : En)
  /-- 0xD3 MSTAT, format E (R183). -/
  | mstat (f : En)
  /-- 0xD4 CPYIN, format E (R184). -/
  | cpyin (f : En)
  /-- 0xD5 CPYST, format E (R184). -/
  | cpyst (f : En)
  /-- 0xD6 CPYX, format E (R184). -/
  | cpyx (f : En)
  /-- 0xD7 CPYG, format E (R184). -/
  | cpyg (f : En)
  /-- 0xD8 CPYR, format E (R184). -/
  | cpyr (f : En)
  /-- 0xD9 BNDSET, format E (R192). -/
  | bndset (f : En)
  /-- 0xDA BNDGET, format E (R192). -/
  | bndget (f : En)
  /-- 0xDB BNDSEL, format E (R192). -/
  | bndsel (f : En)
  /-- 0xDC TWAIT, format E (R173). -/
  | twait (f : En)
  /-- 0xDD TPOLL, format E (R173). -/
  | tpoll (f : En)
  /-- 0xE8 BAR, format Y (R200). -/
  | bar (f : Yf)
  /-- 0xE9 BARARV, format Y (R200). -/
  | bararv (f : Yf)
  /-- 0xEA BARWT, format Y (R200). -/
  | barwt (f : Yf)
  /-- 0xEB BARQ, format Y (R200). -/
  | barq (f : Yf)
  /-- 0xEC FORK, format E (R203). -/
  | fork (f : En)
  /-- 0xED FJOIN, format Y (R206). -/
  | fjoin (f : Yf)
  /-- 0xEE DQPUSH, format SR (R208). -/
  | dqpush (f : Sr)
  /-- 0xEF DQPOP, format SR (R208). -/
  | dqpop (f : Sr)
  /-- 0xF0 DQSTEAL, format SR (R208). -/
  | dqsteal (f : Sr)
  /-- 0xF1 MSEND, format E (R210). -/
  | msend (f : En)
  /-- 0xF2 MRECV, format E (R211). -/
  | mrecv (f : En)
  /-- 0xF3 MPROBE, format E (R213). -/
  | mprobe (f : En)
  /-- 0xF4 GO, format C (R215). -/
  | go (f : Ct)
  /-- 0xF5 GOX, format C (R215). -/
  | gox (f : Ct)
  /-- 0xF6 SEGREP, format E (R218). -/
  | segrep (f : En)
  /-- 0xF7 BOOST, format Y (R219). -/
  | boost (f : Yf)
  /-- 0xF8 BOOSTQ, format Y (R220). -/
  | boostq (f : Yf)
  /-- 0xF9 TRAP, format Y (R224). -/
  | trap (f : Yf)
  /-- 0xFA RTR, format C (R229). -/
  | rtr (f : Ct)
  /-- 0xFB RQRD, format Y (R228). -/
  | rqrd (f : Yf)
  /-- 0xFC RQWR, format Y (R228). -/
  | rqwr (f : Yf)
  /-- 0xFD SYSRD, format Y (R231). -/
  | sysrd (f : Yf)
  /-- 0xFE SYSWR, format Y (R231). -/
  | syswr (f : Yf)
  /-- GROUP_FORM (R254). -/
  | evGroupForm (core : Nat)
  /-- LOAD_RETURN (R77). -/
  | evLoadReturn (op : Nat) (lanes : BitVec 32) (pieces : Nat) (l1 fill : Bool) (errs : List ErrArg)
  /-- STORE_DRAIN (R150). -/
  | evStoreDrain (warp : Nat)
  /-- WRITE_PERFORMED (R150). -/
  | evWritePerformed (id : Nat) (pkg request fill : Bool)
  /-- SERVICE_WARP_REQUEST (R301). -/
  | evServiceWarpRequest (inst clus : Nat)
  /-- QNT_APPLY (R245). -/
  | evQntApply (op : Nat)
  /-- DEFERRED_FAULT (R427). -/
  | evDeferredFault (op : Nat) (merged : Bool)
  /-- EXTENT_MISS_RESOLVED (R357). -/
  | evExtentMissResolved (warp entry victim : Nat)
  /-- MMA_PASS (R178). -/
  | evMmaPass (op : Nat) (faulty : List (Nat × Nat)) (resid : Resid)
  /-- COPY_PASS (R190). -/
  | evCopyPass (op : Nat)
  /-- CPYR_ACK (R190). -/
  | evCpyrAck (op : Nat)
  /-- LINK_FAILURE (R190). -/
  | evLinkFailure (port : Nat)
  /-- FORK_ACCEPT (R203). -/
  | evForkAccept (fork : Nat) (room rings : Bool)
  /-- FJOIN_RESUME (R206). -/
  | evFjoinResume (team : Nat)
  /-- TEAM_RETIRE (R207). -/
  | evTeamRetire (team : Nat)
  /-- MESSAGE_ARRIVAL (R212). -/
  | evMessageArrival (n : Nat)
  /-- PARCEL_ENQUEUE (R216). -/
  | evParcelEnqueue (n : Nat)
  /-- PARCEL_SPILL (R286). -/
  | evParcelSpill (n : Nat)
  /-- PARCEL_ADMIT (R285). -/
  | evParcelAdmit (core lane : Nat)
  /-- RING_DRAIN (R286). -/
  | evRingDrain (core : Nat)
  /-- SEGREP_COMPLETE (R218). -/
  | evSegrepComplete (id : Nat)
  /-- SEGHOT (R289). -/
  | evSeghot (grid seg : Nat)
  /-- WTIMER_EXPIRE (R104). -/
  | evWtimerExpire (warp : Nat)
  /-- SLEEP_TIMEOUT (R222). -/
  | evSleepTimeout (th : Nat)
  /-- SLEW_RESUME (R374). -/
  | evSlewResume (clus : Nat)
  /-- HANG (R305). -/
  | evHang (ctx : Nat)
  /-- TEAM_PLACE (R255). -/
  | evTeamPlace (part : Nat)
  /-- TEAM_PROTECTION (R257). -/
  | evTeamProtection (team : Nat)
  /-- SLICE_END (R319). -/
  | evSliceEnd (part : Nat)
  /-- SOFT_DRAIN_DEADLINE (R365). -/
  | evSoftDrainDeadline (ctx : Nat)
  /-- HALT_COMPLETE (R365). -/
  | evHaltComplete (ctx : Nat)
  /-- HARD_HALT_LIMIT (R365). -/
  | evHardHaltLimit (ctx : Nat)
  /-- CONTEXT_RESTORE (R365). -/
  | evContextRestore (part : Nat)
  /-- FE_MODE_WRITE (R317). -/
  | evFeModeWrite (part via : Nat) (v : BitVec 64) (rings : Bool)
  /-- CTX_CREATE (R318). -/
  | evCtxCreate (part via : Nat) (v : BitVec 64)
  /-- CTX_DESTROY (R318). -/
  | evCtxDestroy (part via : Nat) (v : BitVec 64)
  /-- GRAPH_LOAD (R320). -/
  | evGraphLoad (part via : Nat) (v : BitVec 64)
  /-- GRAPH_UNLOAD (R320). -/
  | evGraphUnload (part via : Nat) (v : BitVec 64)
  /-- GRAPH_DONE (R320). -/
  | evGraphDone (part : Nat) (room : Bool)
  /-- TRIGGER (R322). -/
  | evTrigger (part via : Nat) (v : BitVec 64)
  /-- RUN_START (R323). -/
  | evRunStart (ctx : Nat)
  /-- NODE_LAUNCH (R323). -/
  | evNodeLaunch (ctx : Nat) (rings : Bool)
  /-- RING_HEAD_WRITE (R325). -/
  | evRingHeadWrite (ring via : Nat) (v : BitVec 64)
  /-- RING_INTERRUPT_TIMER (R325). -/
  | evRingInterruptTimer (ring : Nat)
  /-- MB_IN_WRITE (R327). -/
  | evMbInWrite (part via n : Nat) (v : BitVec 64)
  /-- MB_OUT_READ (R327). -/
  | evMbOutRead (part via n : Nat)
  /-- MB_STAT_CLEAR (R327). -/
  | evMbStatClear (part via : Nat) (v : BitVec 64)
  /-- REGISTER_WRITE (R11). -/
  | evRegisterWrite (via vf off : Nat) (v : BitVec 64) (rings : Bool)
  /-- UNSUPPORTED_REQUEST (R315). -/
  | evUnsupportedRequest (via vf off size : Nat)
  /-- WATCH_CTL_WRITE (R366). -/
  | evWatchCtlWrite (ctx via n : Nat) (v : BitVec 64)
  /-- ERR_STATUS_CLEAR (R385). -/
  | evErrStatusClear (v : BitVec 64)
  /-- GET_VERSION (R329). -/
  | evGetVersion
  /-- GET_CAPABILITIES (R329). -/
  | evGetCapabilities
  /-- NEGOTIATE_ALGORITHMS (R329). -/
  | evNegotiateAlgorithms (named : List SpdmAlg)
  /-- GET_DIGESTS (R329). -/
  | evGetDigests
  /-- GET_CERTIFICATE (R329). -/
  | evGetCertificate (slot off len : Nat)
  /-- CHALLENGE (R329). -/
  | evChallenge (slot nonce : Nat)
  /-- GET_MEASUREMENTS (R329). -/
  | evGetMeasurements (index : Nat)
  /-- KEY_EXCHANGE (R329). -/
  | evKeyExchange (slot : Nat)
  /-- FINISH (R329). -/
  | evFinish (proof : Bool)
  /-- HEARTBEAT (R329). -/
  | evHeartbeat
  /-- KEY_UPDATE (R329). -/
  | evKeyUpdate
  /-- END_SESSION (R329). -/
  | evEndSession
  /-- IDE_KM (R329). -/
  | evIdeKm (fn : Nat) (secure : Bool)
  /-- LOCK_INTERFACE (R330). -/
  | evLockInterface (part : Nat)
  /-- START_INTERFACE (R330). -/
  | evStartInterface (part : Nat)
  /-- STOP_INTERFACE (R330). -/
  | evStopInterface (part : Nat)
  /-- IDE_INTEGRITY_FAILURE (R330). -/
  | evIdeIntegrityFailure (fn : Nat)
  /-- VF_ENABLE_CLEAR (R333). -/
  | evVfEnableClear
  /-- PORT_CTL_WRITE (R335). -/
  | evPortCtlWrite (port : Nat) (v : BitVec 64)
  /-- PORT_LINK_CHANGE (R335). -/
  | evPortLinkChange (port link : Nat)
  /-- ROCE_SEND (R336). -/
  | evRoceSend (port qp src : Nat) (payload : List (BitVec 8))
  /-- RDMA_WRITE (R336). -/
  | evRdmaWrite (port qp key va : Nat) (data : List (BitVec 8))
  /-- RDMA_READ (R336). -/
  | evRdmaRead (port qp key va len : Nat)
  /-- PEER_WRITE (R248). -/
  | evPeerWrite (port ctx va : Nat) (data : List (BitVec 8))
  /-- STATUS (R395). -/
  | evStatus
  /-- LOG (R395). -/
  | evLog (off : Nat)
  /-- FW_BEGIN (R395). -/
  | evFwBegin (len : Nat)
  /-- FW_CHUNK (R395). -/
  | evFwChunk (len : Nat)
  /-- FW_COMMIT (R395). -/
  | evFwCommit
  /-- FW_COMMIT_DONE (R395). -/
  | evFwCommitDone
  /-- RESET (R395). -/
  | evReset (found : AssayArg)
  /-- QP_SET (R336). -/
  | evQpSet
  /-- QP_CLEAR (R336). -/
  | evQpClear (qp : Nat)
  /-- KEY_SET (R336). -/
  | evKeySet
  /-- KEY_CLEAR (R336). -/
  | evKeyClear (key : Nat)
  /-- POWER_ON (R391). -/
  | evPowerOn (found : AssayArg)
  /-- POWER_LOSS (R415). -/
  | evPowerLoss
  /-- THERMAL_STEP (R6). -/
  | evThermalStep (phys temp : Nat)
  /-- THERMAL_SHUTDOWN (R6). -/
  | evThermalShutdown (phys temp : Nat)
  /-- THERMAL_RELEASE (R6). -/
  | evThermalRelease (phys temp : Nat)
  /-- POWER_INTERVAL_BOUNDARY (R375). -/
  | evPowerIntervalBoundary (ms : List Meas)
  /-- VOLTAGE_SETTLED (R419). -/
  | evVoltageSettled (clus : Nat)
  /-- PHASE_FAIL (R370). -/
  | evPhaseFail (phys phase : Nat)
  /-- BUMP_SUSPECT (R370). -/
  | evBumpSuspect (phys group drop : Nat)
  /-- CANARY (R377). -/
  | evCanary (phys : Nat)
  /-- CLUSTER_POWER_UP (R373). The headroom is computed: `fits` has no effect (log 94). -/
  | evClusterPowerUp (phys : Nat) (fits : Bool)
  /-- INRUSH_RECHECK (R373). The headroom is computed: `fits` has no effect (log 94). -/
  | evInrushRecheck (phys : Nat) (fits : Bool)
  /-- INRUSH_SLOW (R373). -/
  | evInrushSlow (phys : Nat)
  /-- RAMP_END (R373). -/
  | evRampEnd (phys : Nat)
  /-- ANNEAL (R405). The stress before the rest is kept in the state: `past` has no effect (log 94). -/
  | evAnneal (die sector : Nat) (cal : List Nat) (past : List (Nat × Nat))
  /-- BILLET_CALL (R408). -/
  | evBilletCall (die : Nat)
  /-- BILLET_TEST_DONE (R392). -/
  | evBilletTestDone (die : Nat) (pass : Bool) (cal : BilletFound)
  /-- WEAR_ACCRUAL (R403). -/
  | evWearAccrual (ms : List WearMeas)
  /-- JOURNAL_WRITE (R415). -/
  | evJournalWrite
  /-- CHECKPOINT (R415). -/
  | evCheckpoint
  /-- BUDGET_REFILL (R410). -/
  | evBudgetRefill (part : Nat)
  /-- HM_CTL_GEN (R417). -/
  | evHmCtlGen (v : BitVec 64)
  /-- HALLMARK_DONE (R416). -/
  | evHallmarkDone
  /-- SCRUB_READ (R387). -/
  | evScrubRead (unit : Nat) (errs : List ErrArg) (last : Bool)
  /-- SCRUB_WRITEBACK (R389). -/
  | evScrubWriteback (unit : Nat)
  /-- SCRUB_DEADLINE (R388). -/
  | evScrubDeadline (unit : Nat)
  /-- PARTITION_DIRECT_WRITE (R341). -/
  | evPartitionDirectWrite (part reg : Nat) (v : BitVec 64)
  /-- RESIZE_REQUEST (R348). -/
  | evResizeRequest (part : Nat) (v : BitVec 64)
  /-- RESIZE_CANCEL (R348). -/
  | evResizeCancel (part : Nat) (v : BitVec 64)
  /-- RESIZE_QUIESCING (R348). -/
  | evResizeQuiescing
  /-- RESIZE_MIGRATING (R397). -/
  | evResizeMigrating
  /-- RESIZE_DEADLINE (R349). -/
  | evResizeDeadline
  /-- RESIZE_REMAPPING (R348). -/
  | evResizeRemapping
  /-- RESIZE_REHASHING (R351). -/
  | evResizeRehashing
  /-- RESIZE_SHOOTDOWN (R348). -/
  | evResizeShootdown
  /-- RESIZE_DONE (R350). -/
  | evResizeDone
  /-- INV_QUEUE (R358). -/
  | evInvQueue (v : BitVec 64)
  /-- INV_COMMAND_START (R359). -/
  | evInvCommandStart
  /-- INV_DONE (R359). -/
  | evInvDone
  /-- HINT_MISMATCH (R361). The state counts a range's lookups: the last four arguments have no effect (log 94). -/
  | evHintMismatch (grid range lookups misses remote die : Nat)
  /-- QUOTA_REBALANCE (R345). -/
  | evQuotaRebalance (colour : Nat) (gains losses : List Nat)
  /-- MODULE_RESET (R391). -/
  | evModuleReset (found : AssayArg)
  /-- SCRUB_TAKEOVER (R388). -/
  | evScrubTakeover (unit : Nat) (behind : Bool)
  deriving DecidableEq, Repr

end Sys2Proof
end

