-- ==== Sys2Proof/Machine/Numbers.lean ====
section
/-!
DEFINITION. Number formats, rounding and exact arithmetic (R51 to R65, R74): integers as Int, floating values as exact
dyadic numbers, and one rounding function for every format and mode.
-/
namespace Sys2Proof.Machine

/-! Integers (R51, R52). -/

/-- A w-bit pattern read as unsigned or signed. -/
def intOf (signed : Bool) (w : Nat) (x : Nat) : Int :=
  let y := x % 2 ^ w
  if signed && decide (2 ^ (w - 1) ≤ y) then (y : Int) - 2 ^ w else y

/-- The low w bits of an exact integer, as a pattern. -/
def wrapTo (w : Nat) (x : Int) : Nat := (x % (2 ^ w : Int)).toNat

/-- sat_s and sat_n (R52, R74): the nearest value of the w-bit range. -/
def satTo (signed : Bool) (w : Nat) (x : Int) : Int :=
  if signed then max (-(2 ^ (w - 1) : Int)) (min x (2 ^ (w - 1) - 1)) else max 0 (min x (2 ^ w - 1))

/-- Wrapping, or saturating with .sat (R52), as a w-bit pattern. -/
def narrowInt (signed sat : Bool) (w : Nat) (x : Int) : Nat :=
  wrapTo w (if sat then satTo signed w x else x)

/-- The high half of a 2w-bit product (R52). -/
def mulHigh (signed : Bool) (w a b : Nat) : Nat :=
  wrapTo w ((intOf signed w a * intOf signed w b) / (2 ^ w : Int))

/-- idiv (R52): quotient and remainder patterns; rounds toward zero, and division by zero gives all ones and the dividend. -/
def idiv (signed : Bool) (w a b : Nat) : Nat × Nat :=
  let x := intOf signed w a
  let y := intOf signed w b
  if y = 0 then (2 ^ w - 1, a % 2 ^ w) else (wrapTo w (x.tdiv y), wrapTo w (x.tmod y))

/-- shl (R52). -/
def shlW (w x n : Nat) : Nat := if w ≤ n then 0 else (x * 2 ^ n) % 2 ^ w

/-- shr_l (R52). -/
def shrL (w x n : Nat) : Nat := if w ≤ n then 0 else (x % 2 ^ w) / 2 ^ n

/-- shr_a (R52). -/
def shrA (w x n : Nat) : Nat := wrapTo w (intOf true w x / (2 ^ (min n w) : Int))

/-- Field extract of R92 with its clamps. -/
def bfx (signed : Bool) (w a b : Nat) : Nat :=
  let pos := min (b % 256) w
  let len := min (b / 256 % 256) (w - pos)
  if len = 0 then 0 else wrapTo w (intOf signed len (a % 2 ^ w / 2 ^ pos))

/-- Field insert of R92 with its clamps. -/
def bfi (w a b c : Nat) : Nat :=
  let pos := min (b % 256) w
  let len := min (b / 256 % 256) (w - pos)
  let mask := (2 ^ len - 1) * 2 ^ pos
  ((c % 2 ^ w) - (c % 2 ^ w &&& mask)) + ((a * 2 ^ pos) % 2 ^ w &&& mask)

/-- The number of bits needed to write x: 0 for 0. -/
def bitLen (x : Nat) : Nat := if x = 0 then 0 else Nat.log2 x + 1

/-- Leading zeros within w bits (R91, R117). -/
def clz (w x : Nat) : Nat := w - bitLen (x % 2 ^ w)

/-- Set bits of the low n bits. -/
def popc : Nat → Nat → Nat
  | 0, _ => 0
  | n + 1, x => x % 2 + popc n (x / 2)

/-! Exact values. -/

/-- The value of a floating code: NaN, an infinity, or (−1)^neg × m × 2^e exactly; m = 0 is a signed zero. -/
inductive XR where
  | nan
  | inf (neg : Bool)
  | fin (neg : Bool) (m : Nat) (e : Int)
  deriving DecidableEq, Repr

/-- A dyadic number m × 2^e. -/
structure Dy where
  m : Int
  e : Int
  deriving DecidableEq, Repr

/-- 2^k for k ≥ 0, 1 below. -/
def pow2 (k : Int) : Int := 2 ^ k.toNat

/-- The exact sum of two dyadic numbers. -/
def Dy.add (x y : Dy) : Dy :=
  let e := min x.e y.e
  { m := x.m * pow2 (x.e - e) + y.m * pow2 (y.e - e), e := e }

/-- The negation. -/
def Dy.neg (x : Dy) : Dy := { m := -x.m, e := x.e }

/-- The exact product. -/
def Dy.mul (x y : Dy) : Dy := { m := x.m * y.m, e := x.e + y.e }

/-- x < y, exactly. -/
def Dy.lt (x y : Dy) : Bool := decide ((x.add y.neg).m < 0)

/-- x ≤ y, exactly. -/
def Dy.le (x y : Dy) : Bool := decide ((x.add y.neg).m ≤ 0)

/-- floor(log2 |x|) of a nonzero dyadic number. -/
def Dy.log2 (x : Dy) : Int := (Nat.log2 x.m.natAbs : Int) + x.e

/-- A finite value as a dyadic number. -/
def dyOf (neg : Bool) (m : Nat) (e : Int) : Dy := { m := if neg then -(m : Int) else m, e := e }

/-- A dyadic number as a value; zero takes the sign given. -/
def Dy.toXR (x : Dy) (zneg : Bool) : XR :=
  if x.m = 0 then .fin zneg 0 0 else .fin (decide (x.m < 0)) x.m.natAbs x.e

/-! Formats (R53, R57 to R59). -/

/-- A floating format; binary8 variants by precision, unsigned, finite (R57, R58). -/
inductive Fmt where
  | f64 | f32 | f16 | bf16
  | f8 (p : Nat) (uns fin : Bool)
  deriving DecidableEq, Repr

/-- The significand width, the hidden bit included. -/
def Fmt.prec : Fmt → Nat
  | .f64 => 53 | .f32 => 24 | .f16 => 11 | .bf16 => 8 | .f8 p _ _ => p

/-- The exponent bias (R53, R57, R58). -/
def Fmt.bias : Fmt → Int
  | .f64 => 1023 | .f32 => 127 | .f16 => 15 | .bf16 => 127
  | .f8 p uns _ => if uns then 2 ^ (8 - p) else 2 ^ (7 - p)

/-- The bits below the sign. -/
def Fmt.magBits : Fmt → Nat
  | .f64 => 63 | .f32 => 31 | .f16 => 15 | .bf16 => 15
  | .f8 _ uns _ => if uns then 8 else 7

/-- The exponent of the smallest normal value. -/
def Fmt.emin (f : Fmt) : Int := 1 - f.bias

/-- The canonical NaN (R53, R57, R58). -/
def Fmt.nanCode : Fmt → Nat
  | .f64 => 0x7FF8000000000000 | .f32 => 0x7FC00000 | .f16 => 0x7E00 | .bf16 => 0x7FC0
  | .f8 _ uns _ => if uns then 0xFF else 0x80

/-- The magnitude code of +∞, where the format has one (R53, R57, R58). -/
def Fmt.infMag : Fmt → Option Nat
  | .f64 => some 0x7FF0000000000000 | .f32 => some 0x7F800000 | .f16 => some 0x7C00 | .bf16 => some 0x7F80
  | .f8 _ uns fin => if fin then none else if uns then some 0xFE else some 0x7F

/-- The magnitude code of the largest finite value (R53, R59). -/
def Fmt.maxMag : Fmt → Nat
  | .f64 => 0x7FEFFFFFFFFFFFFF | .f32 => 0x7F7FFFFF | .f16 => 0x7BFF | .bf16 => 0x7F7F
  | .f8 _ uns fin =>
    match uns, fin with
    | false, false => 0x7E
    | false, true => 0x7F
    | true, false => 0xFD
    | true, true => 0xFE

/-- The finite magnitude of a magnitude code: significand and exponent (R53, R57, R58). -/
def Fmt.magValue (f : Fmt) (c : Nat) : Nat × Int :=
  let t := f.prec - 1
  let e := c / 2 ^ t
  let m := c % 2 ^ t
  if e = 0 then (m, f.emin - t) else (2 ^ t + m, (e : Int) - f.bias - t)

/-- value(code, fmt) (R74). -/
def Fmt.value (f : Fmt) (code : Nat) : XR :=
  let mag := code % 2 ^ f.magBits
  let neg := decide (code / 2 ^ f.magBits % 2 = 1)
  match f with
  | .f8 _ uns _ =>
    if code = f.nanCode then .nan
    else if f.infMag = some mag then .inf (neg && !uns)
    else .fin (neg && !uns) (f.magValue mag).1 (f.magValue mag).2
  | _ =>
    if f.infMag = some mag then .inf neg
    else if f.maxMag < mag then .nan
    else .fin neg (f.magValue mag).1 (f.magValue mag).2

/-- The code of a sign and a magnitude code. -/
def Fmt.signed (f : Fmt) (neg : Bool) (mag : Nat) : Nat := if neg then 2 ^ f.magBits + mag else mag

/-! Rounding (R62). -/

/-- The rounding modes of R43 and R62. -/
inductive Rm where
  | rne | rz | ru | rd | rna
  deriving DecidableEq, Repr

/-- RM codes (R43); 5 to 7 are rejected at decode and never reach this. -/
def Rm.ofCode (n : Nat) : Rm :=
  match n with
  | 1 => .rz | 2 => .ru | 3 => .rd | 4 => .rna | _ => .rne

/-- Whether a magnitude is taken one unit up: `r` of `2^k` is cut off, `odd` says the kept unit's code is odd (R62). -/
def roundUp (rm : Rm) (neg odd : Bool) (r k : Nat) : Bool :=
  match rm with
  | .rne => decide (2 ^ k < 2 * r) || (decide (2 * r = 2 ^ k) && odd)
  | .rz => false
  | .ru => decide (r ≠ 0) && !neg
  | .rd => decide (r ≠ 0) && neg
  | .rna => decide (2 ^ k ≤ 2 * r)

/-- m × 2^e (m nonzero) rounded to units of 2^q: the number of units. `odd n` says whether the code of n units is odd. -/
def roundUnits (rm : Rm) (neg : Bool) (odd : Nat → Bool) (m : Nat) (e q : Int) : Nat :=
  if q ≤ e then m * 2 ^ (e - q).toNat
  else
    let k := (q - e).toNat
    let n := m / 2 ^ k
    if roundUp rm neg (odd n) (m % 2 ^ k) k && decide (k ≠ 0) then n + 1 else n

/-- The weight of the lowest bit kept for a magnitude with floor(log2) = E (R62: fixed spacing below emin). -/
def Fmt.unit (f : Fmt) (E : Int) : Int := max E f.emin - ((f.prec : Int) - 1)

/-- The rounded magnitude of nonzero m × 2^e with an unbounded exponent range: units and their weight (R62). -/
def Fmt.roundMag (f : Fmt) (rm : Rm) (neg : Bool) (m : Nat) (e : Int) : Nat × Int :=
  let E := (Nat.log2 m : Int) + e
  let q := f.unit E
  let odd := fun n => if f.prec = 1 then decide (n ≠ 0) && decide ((E + f.bias) % 2 = 1) else decide (n % 2 = 1)
  (roundUnits rm neg odd m e q, q)

/-- The magnitude code of n units of weight q, exactly representable. -/
def Fmt.magCode (f : Fmt) (n : Nat) (q : Int) : Nat :=
  let t := f.prec - 1
  if n < 2 ^ t then n
  else if n = 2 ^ f.prec then (q + 1 + t + f.bias).toNat * 2 ^ t
  else (q + t + f.bias).toNat * 2 ^ t + (n - 2 ^ t)

/-- Whether n × 2^q exceeds the largest finite magnitude. -/
def Fmt.overflows (f : Fmt) (n : Nat) (q : Int) : Bool :=
  let mx := f.magValue f.maxMag
  Dy.lt { m := mx.1, e := mx.2 } { m := n, e := q }

/-- R62's overflow table: whether the overflow of a sign goes to infinity rather than to the largest finite value. -/
def overflowToInf (rm : Rm) (neg : Bool) : Bool :=
  match rm with
  | .rne | .rna => true
  | .rz => false
  | .ru => !neg
  | .rd => neg

/-- The code of an infinite outcome: R60's ±∞ row, and the infinities of the other formats (R62). -/
def Fmt.infCode (f : Fmt) (neg sat : Bool) : Nat :=
  match f with
  | .f8 _ _ _ =>
    if sat then f.signed neg f.maxMag
    else match f.infMag with
      | some m => f.signed neg m
      | none => f.nanCode
  | _ => match f.infMag with
      | some m => f.signed neg m
      | none => f.nanCode

/-- Whether a format is an unsigned binary8 variant. -/
def Fmt.isUns : Fmt → Bool
  | .f8 _ uns _ => uns
  | _ => false

/-- Whether a format is a binary8 variant. -/
def Fmt.is8 : Fmt → Bool
  | .f8 _ _ _ => true
  | _ => false

/-- round(x, fmt, rm), with .sat when `sat` (R55, R60, R62). -/
def Fmt.round (f : Fmt) (rm : Rm) (sat : Bool) (x : XR) : Nat :=
  match x with
  | .nan => f.nanCode
  | .inf neg =>
    if f.isUns && neg then (if sat then 0 else f.nanCode)
    else if f.is8 then f.infCode neg sat else f.infCode neg false
  | .fin neg m e =>
    if m = 0 then (if f.is8 then 0 else f.signed neg 0)
    else if f.isUns && neg then (if sat then 0 else f.nanCode)
    else
      let r := f.roundMag rm neg m e
      if f.overflows r.1 r.2 then
        if sat || !overflowToInf rm neg then f.signed neg f.maxMag else f.infCode neg false
      else if r.1 = 0 && f.is8 then 0
      else f.signed neg (f.magCode r.1 r.2)

/-- An inexact magnitude strictly between m × 2^e and (m + 1) × 2^e, held with one sticky bit below. -/
def stickyMag (m : Nat) (e : Int) (exact : Bool) : Nat × Int := if exact then (m, e) else (2 * m + 1, e - 1)

/-- A finite value rounded to an integer under rm (R63). -/
def roundToInt (rm : Rm) (neg : Bool) (m : Nat) (e : Int) : Int :=
  if m = 0 then 0
  else
    let n := roundUnits rm neg (fun n => decide (n % 2 = 1)) m e 0
    if neg then -(n : Int) else n

/-- cvt_f2i (R63): always saturating; NaN gives 0. -/
def cvtF2I (signed : Bool) (w : Nat) (rm : Rm) (x : XR) : Nat :=
  match x with
  | .nan => 0
  | .inf neg => wrapTo w (if signed then (if neg then -(2 ^ (w - 1) : Int) else 2 ^ (w - 1) - 1)
                          else (if neg then 0 else 2 ^ w - 1))
  | .fin neg m e => wrapTo w (satTo signed w (roundToInt rm neg m e))

/-- An exact integer as a value. -/
def xrOfInt (x : Int) : XR := .fin (decide (x < 0)) x.natAbs 0

/-! Arithmetic on values (R55, R56, R128). -/

/-- The sign of an exact zero sum (R56). -/
def zeroSumNeg (rm : Rm) (xneg yneg : Bool) : Bool := if xneg = yneg then xneg else decide (rm = .rd)

/-- The exact sum; an exact zero takes its sign under R56. -/
def XR.add (rm : Rm) : XR → XR → XR
  | .nan, _ => .nan
  | _, .nan => .nan
  | .inf a, .inf b => if a = b then .inf a else .nan
  | .inf a, .fin _ _ _ => .inf a
  | .fin _ _ _, .inf b => .inf b
  | .fin na ma ea, .fin nb mb eb =>
    if ma = 0 ∧ mb = 0 then .fin (zeroSumNeg rm na nb) 0 0
    else ((dyOf na ma ea).add (dyOf nb mb eb)).toXR (decide (rm = .rd))

/-- The negation of a value. -/
def XR.neg : XR → XR
  | .nan => .nan
  | .inf a => .inf (!a)
  | .fin n m e => .fin (!n) m e

/-- The exact product (R128). DESIGN CHOICE (log 152): the zero of the unsigned binary8 format counts as +0. -/
def XR.mul : XR → XR → XR
  | .nan, _ => .nan
  | _, .nan => .nan
  | .inf a, .inf b => .inf (a != b)
  | .inf a, .fin n m _ => if m = 0 then .nan else .inf (a != n)
  | .fin n m _, .inf a => if m = 0 then .nan else .inf (a != n)
  | .fin na ma ea, .fin nb mb eb => .fin (na != nb) (ma * mb) (ea + eb)

/-- a × b + c, exact (R127, R128). -/
def XR.fma (rm : Rm) (a b c : XR) : XR := XR.add rm (a.mul b) c

/-- Scaling by a power of two, exact (R61, R133). -/
def XR.scale (x : XR) (n : Int) : XR :=
  match x with
  | .fin s m e => .fin s m (e + n)
  | y => y

/-- Whether a value is NaN. -/
def XR.isNan : XR → Bool
  | .nan => true
  | _ => false

/-- Whether a value is finite. -/
def XR.isFin : XR → Bool
  | .fin _ _ _ => true
  | _ => false

/-- a < b on values that are no NaN; the two zeros are equal. -/
def XR.lt : XR → XR → Bool
  | .inf true, .inf true => false
  | .inf true, _ => true
  | _, .inf true => false
  | .inf false, _ => false
  | _, .inf false => true
  | .fin na ma ea, .fin nb mb eb => (dyOf na ma ea).lt (dyOf nb mb eb)
  | _, _ => false

/-- a = b on values that are no NaN; the two zeros are equal. -/
def XR.eqv (a b : XR) : Bool := !a.lt b && !b.lt a

/-- The sign of a value that is no NaN. -/
def XR.isNeg : XR → Bool
  | .inf n => n
  | .fin n _ _ => n
  | .nan => false

/-- a is below b for fmin_num and fmax_num: −0 is below +0 (R56). -/
def XR.below (a b : XR) : Bool := a.lt b || (a.eqv b && a.isNeg && !b.isNeg)

/-- fmin_num and fmax_num on codes of one format (R56): the chosen operand's bits are copied. -/
def fminmaxNum (f : Fmt) (isMax : Bool) (a b : Nat) : Nat :=
  let x := f.value a
  let y := f.value b
  if x.isNan && y.isNan then f.nanCode
  else if x.isNan then b
  else if y.isNan then a
  else if isMax then (if x.below y then b else a)
  else (if y.below x then b else a)

/-- x / y exactly where it is dyadic, else with a sticky bit (R72, R73). -/
def XR.div : XR → XR → XR
  | .nan, _ => .nan
  | _, .nan => .nan
  | .inf _, .inf _ => .nan
  | .inf a, .fin n _ _ => .inf (a != n)
  | .fin n _ _, .inf a => .fin (a != n) 0 0
  | .fin na ma ea, .fin nb mb eb =>
    if mb = 0 then (if ma = 0 then .nan else .inf (na != nb))
    else if ma = 0 then .fin (na != nb) 0 0
    else
      let k := 80 + Nat.log2 mb
      let q := ma * 2 ^ k / mb
      let r := stickyMag q (ea - eb - k) (decide (ma * 2 ^ k % mb = 0))
      .fin (na != nb) r.1 r.2

/-- The integer square root by binary digits from digit n − 1 down. -/
def isqrtFrom : Nat → Nat → Nat → Nat
  | 0, _, r => r
  | n + 1, x, r => isqrtFrom n x (if (r + 2 ^ n) * (r + 2 ^ n) ≤ x then r + 2 ^ n else r)

/-- floor(√x). -/
def isqrt (x : Nat) : Nat := isqrtFrom (bitLen x / 2 + 1) x 0

/-- √x (R72, R73). -/
def XR.sqrt : XR → XR
  | .nan => .nan
  | .inf true => .nan
  | .inf false => .inf false
  | .fin n m e =>
    if m = 0 then .fin n 0 0
    else if n then .nan
    else
      let e2 := if e % 2 = 0 then e else e - 1
      let m2 := if e % 2 = 0 then m else 2 * m
      let y := m2 * 2 ^ 160
      let r := isqrt y
      let s := stickyMag r ((e2 - 160) / 2) (decide (r * r = y))
      .fin false s.1 s.2

/-- 1/√x (R72, R73). -/
def XR.rsqrt : XR → XR
  | .nan => .nan
  | .inf true => .nan
  | .inf false => .fin false 0 0
  | .fin n m e =>
    if m = 0 then .inf n
    else if n then .nan
    else
      let e2 := if e % 2 = 0 then e else e - 1
      let m2 := if e % 2 = 0 then m else 2 * m
      let k := 100 + Nat.log2 m2
      let r := isqrt (2 ^ (2 * k) / m2)
      let s := stickyMag r (-(k : Int) - e2 / 2) (decide (r * r * m2 = 2 ^ (2 * k)))
      .fin false s.1 s.2

/-- 1/x (R72, R73). -/
def XR.rcp (x : XR) : XR := XR.div (.fin false 1 0) x

/-! Error feedback and MX scales (R61, R64, R65). -/

/-- ulp(y, fmt) (R64) of a finite code: its exponent. -/
def Fmt.ulpExp (f : Fmt) (code : Nat) : Int :=
  let mv := f.magValue (code % 2 ^ f.magBits)
  if mv.1 = 0 then (if f.prec = 1 then f.emin else f.emin - ((f.prec : Int) - 1))
  else mv.2

/-- clamp(x, −2^k, +2^k). -/
def Dy.clampPow (x : Dy) (k : Int) : Dy :=
  if Dy.lt { m := 1, e := k } x then { m := 1, e := k }
  else if Dy.lt x { m := -1, e := k } then { m := -1, e := k }
  else x

/-- One element of ef_round: its code and the residual after it (R64). -/
def efStep (f : Fmt) (sat : Bool) (res : Dy) (x : XR) : Nat × Dy :=
  match x with
  | .fin n m e =>
    let t := (dyOf n m e).add res
    let v := t.toXR n
    let y := f.round .rne sat v
    if !(f.value y).isFin || (sat && y ≠ f.round .rne false v) then (y, ⟨0, 0⟩)
    else
      match f.value y with
      | .fin yn ym ye => (y, (t.add (dyOf yn ym ye).neg).clampPow (f.ulpExp y))
      | _ => (y, ⟨0, 0⟩)
  | _ => (f.round .rne sat x, ⟨0, 0⟩)

/-- ef_round from a residual: one optional element a lane (none where it takes no part), in ascending order (R64). -/
def efRoundFrom (f : Fmt) (sat : Bool) : Dy → List (Option XR) → List (Option Nat)
  | _, [] => []
  | res, none :: xs => none :: efRoundFrom f sat res xs
  | res, some x :: xs =>
    let r := efStep f sat res x
    some r.1 :: efRoundFrom f sat r.2 xs

/-- ef_round (R64). -/
def efRound (f : Fmt) (sat : Bool) (xs : List (Option XR)) : List (Option Nat) := efRoundFrom f sat ⟨0, 0⟩ xs

/-- emax(fmt) (R59): floor(log2) of the largest finite value. -/
def Fmt.emax (f : Fmt) : Int :=
  let mx := f.magValue f.maxMag
  (Nat.log2 mx.1 : Int) + mx.2

/-- The largest floor(log2) among the finite nonzero elements. -/
def maxLog : List (Option XR) → Option Int
  | [] => none
  | some (.fin _ m e) :: xs =>
    if m = 0 then maxLog xs
    else match maxLog xs with
      | none => some ((Nat.log2 m : Int) + e)
      | some k => some (max k ((Nat.log2 m : Int) + e))
  | _ :: xs => maxLog xs

/-- mx_scale (R65): the E8M0 code of a block. -/
def mxScale (f : Fmt) (xs : List (Option XR)) : Nat :=
  if xs.any (fun x => match x with | some v => !v.isFin | none => false) then 0xFF
  else match maxLog xs with
    | none => 0x7F
    | some k => (max (-127) (min 127 (k - f.emax)) + 127).toNat

/-- The value of an E8M0 scale code: its power of two, or NaN (R61). -/
def e8m0 (c : Nat) : Option Int := if c = 0xFF then none else some ((c : Int) - 127)

end Sys2Proof.Machine
end

