-- ==== Sys2Proof/Machine/Transc.lean ====
section
/-!
DEFINITION. The correctly rounded functions 2^x, log2 x, tanh x and sigmoid x (R72, R73), by fixed-point series of 256
fraction bits. A result that is not exact is returned strictly between two neighbours of 128 fraction bits, so that one
rounding follows.
-/
namespace Sys2Proof.Machine

/-- One in the fixed-point series: 256 fraction bits. -/
def fxOne : Nat := 2 ^ 256

/-- z + z^3/3 + z^5/5 + …: the next `n` terms, from the odd power `p` of z and its number k. -/
def atanhSeries : Nat → Nat → Nat → Nat → Nat
  | 0, _, _, _ => 0
  | n + 1, z2, p, k => p / k + atanhSeries n z2 (p * z2 / fxOne) (k + 2)

/-- atanh(z) of a fixed-point z of at most one third. -/
def fxAtanh (z : Nat) : Nat := atanhSeries 84 (z * z / fxOne) z 1

/-- ln 2 in fixed point: 2 atanh(1/3). -/
def fxLn2 : Nat := 2 * fxAtanh (fxOne / 3)

/-- 1 + y + y²/2 + …: the next `n` terms, from the term `t` of number k. -/
def expSeries : Nat → Nat → Nat → Nat → Nat
  | 0, _, _, _ => 0
  | n + 1, y, t, k => t + expSeries n y (t * y / fxOne / (k + 1)) (k + 1)

/-- e^y of a fixed-point y below 1. -/
def fxExp (y : Nat) : Nat := expSeries 64 y fxOne 0

/-- e^(−y) of a fixed-point y ≥ 0: 2^(−k) × e^r with y = k ln 2 − r and r below ln 2. -/
def fxExpNeg (y : Nat) : Nat :=
  let k := y / fxLn2 + 1
  if 256 < k then 0 else fxExp (k * fxLn2 - y) / 2 ^ k

/-- A fixed-point magnitude as an inexact value with 128 fraction bits. -/
def fxInexact (neg : Bool) (x : Nat) : XR :=
  let r := stickyMag (x / 2 ^ 64) (-192) false
  .fin neg r.1 r.2

/-- A magnitude of m × 2^e in fixed point, bits below cut. -/
def fxOf (m : Nat) (e : Int) : Nat := if 0 ≤ e + 256 then m * 2 ^ (e + 256).toNat else m / 2 ^ (-(e + 256)).toNat

/-- 2^x (R72, R73). Integers are exact; exponents beyond ±4096 are held there, far outside every format. -/
def XR.exp2 : XR → XR
  | .nan => .nan
  | .inf true => .fin false 0 0
  | .inf false => .inf false
  | .fin n m e =>
    if m = 0 then .fin false 1 0
    else if 13 ≤ (Nat.log2 m : Int) + e then
      .fin false 1 (if n then -4096 else 4096)
    else if 0 ≤ e then .fin false 1 (if n then -((m : Int) * pow2 e) else (m : Int) * pow2 e)
    else
      let d := 2 ^ (-e).toNat
      if m % d = 0 then .fin false 1 (if n then -((m / d : Nat) : Int) else (m / d : Nat))
      else
        -- x = i + f with f in (0, 1)
        let i : Int := if n then -((m / d : Nat) : Int) - 1 else (m / d : Nat)
        let r := m % d
        let fnum := if n then d - r else r
        let f := if (-e).toNat ≤ 256 then fnum * fxOne / d else fxOf fnum e
        let y := f * fxLn2 / fxOne
        let v := if n && decide (f = fxOne) then fxOne * 2 - 1 else fxExp y
        let s := stickyMag (v / 2 ^ 64) (-192 + i) false
        .fin false s.1 s.2

/-- log2 x (R72, R73). Powers of two are exact. -/
def XR.log2 : XR → XR
  | .nan => .nan
  | .inf true => .nan
  | .inf false => .inf false
  | .fin n m e =>
    if m = 0 then .inf true
    else if n then .nan
    else
      let k := Nat.log2 m
      let i : Int := k + e
      if m = 2 ^ k then (if i = 0 then .fin false 0 0 else .fin (decide (i < 0)) i.natAbs 0)
      else
        let num := (m - 2 ^ k) * fxOne
        let z := num / (m + 2 ^ k)
        let l := 2 * fxAtanh z * fxOne / fxLn2
        let v : Int := i * fxOne + l
        fxInexact (decide (v < 0)) v.natAbs

/-- tanh x (R72, R73). Below 2^−40 the result lies just under x; above 64 it lies just under 1. -/
def XR.tanh : XR → XR
  | .nan => .nan
  | .inf n => .fin n 1 0
  | .fin n m e =>
    if m = 0 then .fin n 0 0
    else
      let E := (Nat.log2 m : Int) + e
      if E < -40 then
        let s := stickyMag (m * 2 ^ 128 - 1) (e - 128) false
        .fin n s.1 s.2
      else if 6 ≤ E then
        let s := stickyMag (2 ^ 128 - 1) (-128) false
        .fin n s.1 s.2
      else
        let w := fxExpNeg (2 * fxOf m e)
        fxInexact n ((fxOne - w) * fxOne / (fxOne + w))

/-- 1/(1 + e^(−x)) (R72, R73). -/
def XR.sigmoid : XR → XR
  | .nan => .nan
  | .inf true => .fin false 0 0
  | .inf false => .fin false 1 0
  | .fin n m e =>
    if m = 0 then .fin false 1 (-1)
    else
      let E := (Nat.log2 m : Int) + e
      if E < -200 then
        -- strictly beside one half
        let s := stickyMag (if n then 2 ^ 127 - 1 else 2 ^ 127) (-128) false
        .fin false s.1 s.2
      else if 7 ≤ E then
        let s := if n then stickyMag 0 (-400) false else stickyMag (2 ^ 128 - 1) (-128) false
        .fin false s.1 s.2
      else
        let w := fxExpNeg (fxOf m e)
        if n then
          let v := w * fxOne / (fxOne + w)
          let s := stickyMag v (-256) false
          .fin false s.1 s.2
        else fxInexact false (fxOne * fxOne / (fxOne + w))

end Sys2Proof.Machine
end

