-- ==== Sys2Proof/Machine/Flags.lean ====
section
/-!
DEFINITION. Flags: the machine has no status flags; conditions are truth values in predicates and registers. Here stand every
condition and carry the spec computes: COND of SSET and VCMP (R91, R123), COND of VFCMP (R130), the class mask of VFCLASS (R131)
and the carry of VADDC (R120).
-/
namespace Sys2Proof.Machine

/-- COND of SSET and VCMP on two exact integers (R91, R123). -/
def condInt (cc : Nat) (a b : Int) : Bool :=
  match cc with
  | 0 => decide (a = b)
  | 1 => decide (a ≠ b)
  | 2 => decide (a < b)
  | 3 => decide (a ≤ b)
  | 4 => decide (b < a)
  | _ => decide (b ≤ a)

/-- COND of VFCMP on two values (R130): .ne is true of a NaN, the other relations are false of it. -/
def condFloat (cc : Nat) (a b : XR) : Bool :=
  let un := a.isNan || b.isNan
  match cc with
  | 0 => !un && a.eqv b
  | 1 => un || !a.eqv b
  | 2 => !un && a.lt b
  | 3 => !un && !b.lt a
  | 4 => !un && b.lt a
  | 5 => !un && !a.lt b
  | 6 => !un
  | _ => un

/-- The class bit of a code (R131). -/
def classBit (f : Fmt) (code : Nat) : Nat :=
  let t := f.prec - 1
  match f.value code with
  | .nan => if code / 2 ^ (t - 1) % 2 = 0 then 0 else 1
  | .inf neg => if neg then 2 else 9
  | .fin neg m _ =>
    if m = 0 then (if neg then 5 else 6)
    else if m < 2 ^ t then (if neg then 4 else 7)
    else if neg then 3 else 8

/-- The sum and carry-out of VADDC (R120). -/
def addCarry (a b : Nat) (sub cin : Bool) : Nat × Bool :=
  let b' := if sub then 2 ^ 32 - 1 - b % 2 ^ 32 else b % 2 ^ 32
  let x := a % 2 ^ 32 + b' + cin.toNat
  (x % 2 ^ 32, decide (2 ^ 32 ≤ x))

end Sys2Proof.Machine
end

