-- ==== Sys2Proof/Config.lean ====
section
/-!
DEFINITION. The free values: what the spec leaves open and no definition may fix. Each is opaque, so no proof sees a value.
-/
namespace Sys2Proof

/-- A value the spec leaves open, one for each number of the State's free-value counter (assumption 3). -/
opaque Config.freeValue : Nat → BitVec 64

/-- The FIRST field of s61 for a trap that has no replay entry, by its code, information word, PC and the queue's entry count; the spec gives
none, and a deterministic context's registers depend on nothing else (R225, R268, assumption 145). -/
opaque Config.trapFirst : Nat → BitVec 64 → BitVec 64 → Nat → Nat

/-- Whether an RSA-3072 signature over a SHA-256 digest verifies; keys are no part of the machine's text (assumption 4). -/
opaque Config.signatureOk : Nat → Nat → Bool

/-- The bytes of a signature or a cryptographic answer that the module makes, by what it signs (assumption 4). -/
opaque Config.signatureOf : Nat → Nat → BitVec 64

/-- Whether a pass of an engine operation, at a tile and K-block, raises its cluster's projected current by more than 4 A; the spec gives no
projection (R372, assumption 130). -/
opaque Config.passRaises : Nat → Nat → Nat → Bool

/-- How the device arranges what a team's save record holds, after its header; the spec gives the record's size and contents (R263, R364,
assumption 131). -/
opaque Config.recordImage : List Byte → List Byte

/-- How the device arranges its own state in a save area's first page, by what it holds and the byte's offset; the spec gives its place, its
size and its contents (R363, assumption 131). -/
opaque Config.deviceByte : List (BitVec 8) → Nat → BitVec 8

/-- The set of a slice that a line falls in, modulo the 1,024 sets; the spec gives no index function (R345, assumption 136). -/
opaque Config.l2Set : Nat → Nat

/-- Where the graph engine reserves a segment's overflow ring in the context's memory, by grid and segment (R283, assumption 132). -/
opaque Config.ringBase : Nat → Nat → BitVec 64

end Sys2Proof
end

