-- ==== Sys2Proof/WellFormed.lean ====
section
/-!
DEFINITION. Which instructions are well formed: the operands each form reads and writes (`Instr.shape`), the classes of their
register fields (R39), and the field values each form accepts (R41 to R45 and the form's own chapter). What depends on the
launch (register counts, travelling mode, handler state) is `Instr.allowed`.
-/
namespace Sys2Proof

/-- A register operand: a lane register, an even pair, a quad, a run of lane registers, a scalar register, a predicate (R39, R140). -/
inductive Opnd where
  | v  (r : RegField)
  | vp (r : RegField)
  | vq (r : RegField)
  | vr (r : RegField) (n : Nat)
  | s  (r : RegField)
  | p  (r : RegField)
  deriving DecidableEq, Repr

/-- The registers a form reads and writes. -/
structure Shape where
  reads  : List Opnd
  writes : List Opnd
  deriving DecidableEq, Repr

/-- The class check of R39 on one operand field; `wr` says it is a destination. -/
def Opnd.ok (wr : Bool) : Opnd → Bool
  | .v _ => true
  | .vp r => decide (r.toNat % 2 = 0 ∧ r.toNat ≤ 252)
  | .vq r => decide (r.toNat % 4 = 0 ∧ r.toNat + 3 ≤ 254)
  | .vr r n => decide (r.toNat + n ≤ 255 ∨ (n = 1 ∧ r.toNat = 255))
  | .s r => decide (r.toNat ≤ 63)
  | .p r => decide (r.toNat ≤ if wr then 6 else 7)

/-- What a launch limits (R25, R39, R282): the register counts of its entry, travelling mode, and the thread's handler state. -/
structure Limits where
  nv      : Nat
  ns      : Nat
  travel  : Bool
  handler : Bool
  deriving DecidableEq, Repr

/-- The lane-register limit: the entry record's count, and 32 in a travelling grid (R39). -/
def Limits.lanes (l : Limits) : Nat := if l.travel then min l.nv 32 else l.nv

/-- The limits of R39 on one operand; vz, sz and pt always pass. -/
def Opnd.within (l : Limits) : Opnd → Bool
  | .v r => decide (r.toNat = 255 ∨ r.toNat < l.lanes)
  | .vp r => decide (r.toNat + 2 ≤ l.lanes)
  | .vq r => decide (r.toNat + 4 ≤ l.lanes)
  | .vr r n => decide (n = 0 ∨ r.toNat + n ≤ l.lanes ∨ (n = 1 ∧ r.toNat = 255))
  | .s r => decide (r.toNat = 63 ∨ (l.travel = false ∧ (r.toNat < l.ns ∨ (l.handler = true ∧ (r.toNat = 61 ∨ r.toNat = 62)))))
  | .p _ => true

/-- A 64-bit type: its lane operands are pairs (R51, R113). -/
def Ty.is64 : Ty → Bool
  | .s64 | .n64 | .b64 | .f64 => true
  | _ => false

/-- A signed integer type (R42). -/
def Ty.isSigned : Ty → Bool
  | .s32 | .s64 | .s16x2 | .s8x4 => true
  | _ => false

/-- A lane operand of a type's width. -/
def laneOf (t : Ty) (r : RegField) : Opnd := if t.is64 then .vp r else .v r

/-- The I set of R113. -/
def tyI : List Ty := [.s32, .n32, .s64, .n64]
/-- The P set of R113. -/
def tyP : List Ty := [.s16x2, .n16x2, .s8x4, .n8x4]
/-- The B set of R113. -/
def tyB : List Ty := [.b32, .b64]
/-- The F set of R113. -/
def tyF : List Ty := [.f32, .f16x2, .bf16x2, .f64]
/-- The G set of R113. -/
def tyG : List Ty := [.f32, .f16x2, .bf16x2]
/-- The types of the shift forms of R91. -/
def tySh : List Ty := [.b32, .b64, .s32, .s64, .n32, .n64]

/-- Bits [lo + n − 1 : lo] of a field, as a number. -/
def bitsOf {w : Nat} (x : BitVec w) (lo n : Nat) : Nat := x.toNat / 2 ^ lo % 2 ^ n

/-- No bit of a field outside a mask is set (R41). -/
def only {w : Nat} (x : BitVec w) (mask : Nat) : Bool := decide (x.toNat &&& mask = x.toNat)

/-- SAT of an SR form: word bit [7] (R43, R90). -/
def Sr.sat (f : Sr) : Bool := f.mod.getLsbD 7
/-- Word bit [8] of an SR form: REM, NA, SRC or IL by form (R91, R94, R98, R99). -/
def Sr.bit8 (f : Sr) : Bool := f.mod.getLsbD 8
/-- COND of SSET (R91). -/
def Sr.cond (f : Sr) : Nat := bitsOf f.mod 8 3
/-- OP of PLOG (R95). -/
def Sr.plogOp (f : Sr) : Nat := bitsOf f.mod 8 2
/-- The immediate lane of VRDLANE and VWRLANE (R99). -/
def Sr.lane (f : Sr) : Nat := bitsOf f.mod 9 5

/-- RM of a VR form: word bits [6:4] (R43). -/
def Vr.rm (f : Vr) : Nat := bitsOf f.mod 0 3
/-- SAT of a VR form: word bit [7] (R43). -/
def Vr.sat (f : Vr) : Bool := f.mod.getLsbD 3
/-- Word bit [8] of a VR form: WIDE, NB, CIN, MIX, NC, NA, DIR or BL by form. -/
def Vr.bit8 (f : Vr) : Bool := f.mod.getLsbD 4
/-- Word bit [9] of a VR form: INCL of VMBCNT (R126). -/
def Vr.bit9 (f : Vr) : Bool := f.mod.getLsbD 5
/-- CO of VADDC (R120). -/
def Vr.co (f : Vr) : Nat := bitsOf f.mod 5 3
/-- SUB of VADDC and EL of VFCMP and VCVT: word bit [12]; UNS of VCVT8 and VCVTMX too (R120, R130, R134, R135). -/
def Vr.bit12 (f : Vr) : Bool := f.mod.getLsbD 8
/-- GW of VSHFL (R125). -/
def Vr.gw (f : Vr) : Nat := bitsOf f.mod 0 3
/-- MODE of VSHFL and OP of VFSGN: word bits [9:8] (R125, R129). -/
def Vr.mode (f : Vr) : Nat := bitsOf f.mod 4 2
/-- IMM of VSHFL (R125). -/
def Vr.imm (f : Vr) : Bool := f.mod.getLsbD 6
/-- The immediate k of VSHFL (R125). -/
def Vr.k (f : Vr) : Nat := bitsOf f.mod 7 5
/-- COND of VCMP: word bits [10:8] (R123). -/
def Vr.cond3 (f : Vr) : Nat := bitsOf f.mod 4 3
/-- COND of VFCMP and STY of VCVT: word bits [11:8] (R130, R134). -/
def Vr.cond4 (f : Vr) : Nat := bitsOf f.mod 4 4
/-- P of VCVT8 and VCVTMX (R135, R138). -/
def Vr.prec (f : Vr) : Nat := bitsOf f.mod 5 3
/-- FIN of VCVT8 and VCVTMX (R135). -/
def Vr.fin (f : Vr) : Bool := f.mod.getLsbD 9
/-- EF of VCVT8 and VCVTMX (R135). -/
def Vr.ef (f : Vr) : Bool := f.mod.getLsbD 10
/-- HI of VCVT8, BH of VCVTMX: word bit [15] (R135, R138). -/
def Vr.hi (f : Vr) : Bool := f.mod.getLsbD 11

/-- The type an STY code stands for (R42, R134). -/
def tyOfNat (n : Nat) : Option Ty :=
  match n with
  | 0 => some .b32 | 1 => some .s32 | 2 => some .n32 | 3 => some .s64 | 4 => some .n64
  | 5 => some .f32 | 6 => some .f16x2 | 7 => some .bf16x2 | 8 => some .f64 | 9 => some .s16x2
  | 10 => some .n16x2 | 11 => some .s8x4 | 12 => some .n8x4 | 13 => some .b64
  | _ => none

/-- The conversions VCVT accepts (R134). -/
def cvtPair (src dst : Ty) : Bool :=
  let ints := tyI
  let h := [Ty.f16x2, Ty.bf16x2]
  let hi := [Ty.s16x2, Ty.n16x2]
  decide (src ≠ dst) &&
    ((ints.contains src && [Ty.f32, .f64].contains dst) || ([Ty.f32, .f64].contains src && ints.contains dst)
      || (src == .f32 && dst == .f64) || (src == .f64 && dst == .f32)
      || (src == .f32 && h.contains dst) || (h.contains src && dst == .f32) || (h.contains src && h.contains dst)
      || (h.contains src && hi.contains dst) || (hi.contains src && h.contains dst)
      || (ints.contains src && ints.contains dst))

/-- A control-register selector's access (R11, R232). -/
inductive Access where
  | ro | rw | w1c | wo
  deriving DecidableEq, Repr

/-- Whose a control register is (R232): the context, a partition, a die, the device, a logical cluster. -/
inductive SelOwner where
  | ctx
  | part (p : Nat)
  | die (d : Nat)
  | dev
  | clus (c : Nat)
  deriving DecidableEq, Repr

/-- One row of the selector map (R232). -/
structure SelRow where
  access : Access
  v      : Bool
  owner  : SelOwner
  deriving DecidableEq, Repr

/-- The selector map (R232); none where a selector is not listed. -/
def selRow (sel : Nat) : Option SelRow :=
  let hi := sel / 0x1000
  let mid := sel / 0x100 % 16
  let lo := sel % 0x100
  if sel = 0x0000 then some ⟨.rw, false, .ctx⟩
  else if sel = 0x0001 ∨ sel = 0x0002 then some ⟨.ro, false, .ctx⟩
  else if 0x0010 ≤ sel ∧ sel ≤ 0x0017 then some ⟨.rw, false, .ctx⟩
  else if sel = 0x0020 then some ⟨.ro, true, .ctx⟩
  else if hi = 1 then
    if lo ≤ 4 then some ⟨.rw, false, .part mid⟩
    else if lo = 8 then some ⟨.wo, false, .part mid⟩
    else if lo = 9 then some ⟨.ro, true, .part mid⟩
    else if lo = 0x10 ∨ lo = 0x11 then some ⟨.ro, true, .part mid⟩
    else if lo = 0x20 then some ⟨.rw, false, .part mid⟩
    else none
  else if hi = 2 then
    if 3 < mid then none
    else if lo ≤ 2 ∨ lo = 0x10 then some ⟨.rw, false, .die mid⟩
    else none
  else if sel = 0x3000 then some ⟨.wo, false, .dev⟩
  else if sel = 0x3001 then some ⟨.ro, true, .dev⟩
  else if sel = 0x3010 then some ⟨.rw, false, .dev⟩
  else if sel = 0x3020 then some ⟨.rw, false, .dev⟩
  else if sel = 0x3021 then some ⟨.w1c, true, .dev⟩
  else if sel = 0x3030 then some ⟨.rw, false, .dev⟩
  else if 0x8000 ≤ sel ∧ sel < 0xC000 ∧ sel % 16 ≤ 3 then some ⟨.ro, true, .clus ((sel - 0x8000) / 16)⟩
  else none

/-- The registers of a fragment's lane base: 8, or 16 for ROLE 2, one more with SC (R169). -/
def fragRegs (emod : W16) : Nat := (if bitsOf emod 5 2 = 2 then 16 else 8) + (if emod.getLsbD 3 then 1 else 0)

/-- A data operand of an M or MA form by SZ (R140, R142). -/
def dataOf (sz : Sz) (r : RegField) : Opnd :=
  match sz with
  | .z8 | .z16 | .z32 => .v r
  | .z64 => .vp r
  | .z128 => .vq r

/-- The address operand of an M or MA form (R40, R143). -/
def addrOf (as_ : Bool) (a : RegField) : Opnd := if as_ then .s a else .vp a

/-- The returned-value operand of ACAS and ACASS: D 255 discards at either size (R158). -/
def oldOf (sz : Sz) (d : RegField) : List Opnd := if d = 255 then [] else [dataOf sz d]

/-- The B operand of a VR form: a lane operand, or a scalar when SB is set (R40, R112). -/
def bOf (f : Vr) (lane : Opnd) : Opnd := if f.sb then .s f.b else lane


/-- The highest identifier of a barrier level (R198). -/
def barMax (level : Nat) : Nat :=
  match level with
  | 0 => 0 | 1 => 15 | 2 => 3 | _ => 1

/-- The registers each instruction reads and writes, as its chapter's entry states; an event names none. -/
def Instr.shape : Instr → Shape
  | .nop _ => ⟨[], []⟩
  | .sadd f => ⟨[.s f.a, .s f.b], [.s f.d]⟩
  | .ssub f => ⟨[.s f.a, .s f.b], [.s f.d]⟩
  | .smul f => ⟨[.s f.a, .s f.b], [.s f.d]⟩
  | .smulh f => ⟨[.s f.a, .s f.b], [.s f.d]⟩
  | .sdiv f => ⟨[.s f.a, .s f.b], [.s f.d]⟩
  | .smin f => ⟨[.s f.a, .s f.b], [.s f.d]⟩
  | .smax f => ⟨[.s f.a, .s f.b], [.s f.d]⟩
  | .sand f => ⟨[.s f.a, .s f.b], [.s f.d]⟩
  | .sor f => ⟨[.s f.a, .s f.b], [.s f.d]⟩
  | .sxor f => ⟨[.s f.a, .s f.b], [.s f.d]⟩
  | .sshl f => ⟨[.s f.a, .s f.b], [.s f.d]⟩
  | .sshr f => ⟨[.s f.a, .s f.b], [.s f.d]⟩
  | .sbfx f => ⟨[.s f.a, .s f.b], [.s f.d]⟩
  | .sbfi f => ⟨[.s f.a, .s f.b, .s f.c], [.s f.d]⟩
  | .sclz f => ⟨[.s f.a], [.s f.d]⟩
  | .spopc f => ⟨[.s f.a], [.s f.d]⟩
  | .sset f => ⟨[.s f.a, .s f.b], [.s f.d]⟩
  | .ssel f => ⟨[.s f.a, .s f.b, .s f.c], [.s f.d]⟩
  | .smov f => ⟨[.s f.a], [.s f.d]⟩
  | .smovi f => ⟨[], [.s f.d]⟩
  | .smovhi f => ⟨[.s f.a], [.s f.d]⟩
  | .saddi f => ⟨[.s f.a], [.s f.d]⟩
  | .vrdlane f => ⟨[laneOf f.ty f.a, .s f.b] ++ (if f.bit8 then [] else [.s f.c]), [.s f.d]⟩
  | .vwrlane f => ⟨[.s f.a, .s f.b] ++ (if f.bit8 then [] else [.s f.c]), [laneOf f.ty f.d]⟩
  | .ballot f => ⟨[.p f.a, .s f.b], [.s f.d]⟩
  | .pfrom f => ⟨[if f.bit8 then .s f.a else laneOf f.ty f.a], [.p f.d]⟩
  | .plog f => ⟨[.p f.a, .p f.b], [.p f.d]⟩
  | .srd f => ⟨[], [if f.ymod.getLsbD 0 then .s f.d else if f.sel == 0xC || f.sel == 0xD then .vp f.d else .v f.d]⟩
  | .swr f => ⟨[if f.ymod.getLsbD 0 then .s f.a else .v f.a], []⟩
  | .bra _ => ⟨[], []⟩
  | .brx f => ⟨[if f.cmod == 1 then .s f.a else .vp f.a], []⟩
  | .call _ => ⟨[], [.vp 30]⟩
  | .callx f => ⟨[if f.cmod == 1 then .s f.a else .vp f.a], [.vp 30]⟩
  | .ret f => ⟨[.vp f.a], []⟩
  | .mkjoin f => ⟨[.s f.a], [.s f.d]⟩
  | .join f => ⟨[.s f.a], []⟩
  | .exit _ => ⟨[], []⟩
  | .yield _ => ⟨[], []⟩
  | .mbrd f => ⟨[], [.s f.d]⟩
  | .mbwr f => ⟨[.s f.a], []⟩
  | .sleep _ => ⟨[], []⟩
  | .evsig _ => ⟨[], []⟩
  | .vadd f => ⟨[laneOf f.ty f.a, bOf f (laneOf f.ty f.b)], [laneOf f.ty f.d]⟩
  | .vsub f => ⟨[laneOf f.ty f.a, bOf f (laneOf f.ty f.b)], [laneOf f.ty f.d]⟩
  | .vmul f => ⟨[laneOf f.ty f.a, bOf f (laneOf f.ty f.b)], [laneOf f.ty f.d]⟩
  | .vmulh f => ⟨[laneOf f.ty f.a, bOf f (laneOf f.ty f.b)], [laneOf f.ty f.d]⟩
  | .vmad f => ⟨[laneOf f.ty f.a, bOf f (laneOf f.ty f.b), if f.bit8 then .vp f.c else laneOf f.ty f.c], [if f.bit8 then .vp f.d else laneOf f.ty f.d]⟩
  | .vmin f => ⟨[laneOf f.ty f.a, bOf f (laneOf f.ty f.b)], [laneOf f.ty f.d]⟩
  | .vmax f => ⟨[laneOf f.ty f.a, bOf f (laneOf f.ty f.b)], [laneOf f.ty f.d]⟩
  | .vabsd f => ⟨[laneOf f.ty f.a, bOf f (laneOf f.ty f.b)], [laneOf f.ty f.d]⟩
  | .vand f => ⟨[laneOf f.ty f.a, bOf f (laneOf f.ty f.b)], [laneOf f.ty f.d]⟩
  | .vor f => ⟨[laneOf f.ty f.a, bOf f (laneOf f.ty f.b)], [laneOf f.ty f.d]⟩
  | .vxor f => ⟨[laneOf f.ty f.a, bOf f (laneOf f.ty f.b)], [laneOf f.ty f.d]⟩
  | .vshl f => ⟨[laneOf f.ty f.a, bOf f (.v f.b)], [laneOf f.ty f.d]⟩
  | .vshr f => ⟨[laneOf f.ty f.a, bOf f (.v f.b)], [laneOf f.ty f.d]⟩
  | .vbfx f => ⟨[laneOf f.ty f.a, bOf f (.v f.b)], [laneOf f.ty f.d]⟩
  | .vbfi f => ⟨[laneOf f.ty f.a, bOf f (.v f.b), laneOf f.ty f.c], [laneOf f.ty f.d]⟩
  | .vclz f => ⟨[laneOf f.ty f.a], [.v f.d]⟩
  | .vpopc f => ⟨[laneOf f.ty f.a], [.v f.d]⟩
  | .vaddc f => ⟨[.v f.a, bOf f (.v f.b)] ++ (if f.bit8 then [.p f.c] else []), [.v f.d] ++ (if f.co = 7 then [] else [.p (BitVec.ofNat 8 f.co)])⟩
  | .vdot4 f => ⟨[laneOf f.ty f.a, bOf f (laneOf f.ty f.b), laneOf f.ty f.c], [laneOf f.ty f.d]⟩
  | .vperm f => ⟨[laneOf f.ty f.a, bOf f (laneOf f.ty f.b), laneOf f.ty f.c], [laneOf f.ty f.d]⟩
  | .vshfl f => ⟨[laneOf f.ty f.a, .s f.b] ++ (if f.imm then [] else [.v f.c]), [laneOf f.ty f.d]⟩
  | .vmbcnt f => ⟨[.p f.a, .s f.b], [.v f.d]⟩
  | .vcmp f => ⟨[laneOf f.ty f.a, bOf f (laneOf f.ty f.b)], [.p f.d]⟩
  | .vsel f => ⟨[laneOf f.ty f.a, bOf f (laneOf f.ty f.b), .p f.c], [laneOf f.ty f.d]⟩
  | .vmov f => ⟨[if f.sb then .s f.b else laneOf f.ty f.a], [laneOf f.ty f.d]⟩
  | .vmovi f => ⟨[], [laneOf f.ty f.d]⟩
  | .vaddi f => ⟨[laneOf f.ty f.a], [laneOf f.ty f.d]⟩
  | .vfadd f => ⟨[laneOf f.ty f.a, bOf f (laneOf f.ty f.b)], [laneOf f.ty f.d]⟩
  | .vfsub f => ⟨[laneOf f.ty f.a, bOf f (laneOf f.ty f.b)], [laneOf f.ty f.d]⟩
  | .vfmul f => ⟨[laneOf f.ty f.a, bOf f (laneOf f.ty f.b)], [laneOf f.ty f.d]⟩
  | .vfma f => ⟨[laneOf f.ty f.a, bOf f (laneOf f.ty f.b), laneOf f.ty f.c], [laneOf f.ty f.d]⟩
  | .vfmin f => ⟨[laneOf f.ty f.a, bOf f (laneOf f.ty f.b)], [laneOf f.ty f.d]⟩
  | .vfmax f => ⟨[laneOf f.ty f.a, bOf f (laneOf f.ty f.b)], [laneOf f.ty f.d]⟩
  | .vfsgn f => ⟨[laneOf f.ty f.a, laneOf f.ty f.b], [laneOf f.ty f.d]⟩
  | .vfcmp f => ⟨[laneOf f.ty f.a, bOf f (laneOf f.ty f.b)], [.p f.d]⟩
  | .vfclass f => ⟨[laneOf f.ty f.a], [.v f.d]⟩
  | .vfrnd f => ⟨[laneOf f.ty f.a], [laneOf f.ty f.d]⟩
  | .vfldx f => ⟨[laneOf f.ty f.a, bOf f (.v f.b)], [laneOf f.ty f.d]⟩
  | .vfdiv f => ⟨[laneOf f.ty f.a, bOf f (laneOf f.ty f.b)], [laneOf f.ty f.d]⟩
  | .vfsqrt f => ⟨[laneOf f.ty f.a], [laneOf f.ty f.d]⟩
  | .vfrcp f => ⟨[laneOf f.ty f.a], [laneOf f.ty f.d]⟩
  | .vfrsq f => ⟨[laneOf f.ty f.a], [laneOf f.ty f.d]⟩
  | .vfexp2 f => ⟨[laneOf f.ty f.a], [laneOf f.ty f.d]⟩
  | .vflog2 f => ⟨[laneOf f.ty f.a], [laneOf f.ty f.d]⟩
  | .vftanh f => ⟨[laneOf f.ty f.a], [laneOf f.ty f.d]⟩
  | .vfsigm f => ⟨[laneOf f.ty f.a], [laneOf f.ty f.d]⟩
  | .vcvt f => ⟨[laneOf ((tyOfNat f.cond4).getD .b32) f.a] ++ (if f.cond4 = 5 && (f.ty == .f16x2 || f.ty == .bf16x2) then [bOf f (.v f.b)] else []), [laneOf f.ty f.d]⟩
  | .vcvt8 f => ⟨[.v f.a] ++ (if f.bit8 then [] else [bOf f (.v f.b)]) ++ (if f.ef then [.s f.c] else []), (if f.bit8 then [.vp f.d] else [.v f.d])⟩
  | .vcvtmx f => ⟨[.v f.a, .s f.b], [.v f.d, .s f.c]⟩
  | .ld f => ⟨[addrOf f.as_ f.a], [dataOf f.sz f.d]⟩
  | .st f => ⟨[addrOf f.as_ f.a, dataOf f.sz f.b], []⟩
  | .sld f => ⟨[.s f.a], [.s f.d]⟩
  | .sst f => ⟨[.s f.a, .s f.b], []⟩
  | .lds f => ⟨[addrOf f.as_ f.a], [dataOf f.sz f.d]⟩
  | .sts f => ⟨[addrOf f.as_ f.a, dataOf f.sz f.b], []⟩
  | .ldx f => ⟨[addrOf f.as_ f.a], [dataOf f.sz f.d]⟩
  | .stx f => ⟨[addrOf f.as_ f.a, dataOf f.sz f.b], []⟩
  | .stcmp f => ⟨[.s f.a, dataOf f.sz f.b], [.s f.d]⟩
  | .ldexp f => ⟨[.s f.a], [dataOf f.sz f.d]⟩
  | .pref f => ⟨[addrOf f.as_ f.a], []⟩
  | .linv _ => ⟨[], []⟩
  | .fence _ => ⟨[], []⟩
  | .atom f => ⟨[addrOf f.as_ f.a, dataOf f.sz f.b], (if f.ret then [dataOf f.sz f.d] else [])⟩
  | .acas f => ⟨[addrOf f.as_ f.a, dataOf f.sz f.b, dataOf f.sz f.c], oldOf f.sz f.d⟩
  | .atoms f => ⟨[addrOf f.as_ f.a, dataOf f.sz f.b], (if f.ret then [dataOf f.sz f.d] else [])⟩
  | .acass f => ⟨[addrOf f.as_ f.a, dataOf f.sz f.b, dataOf f.sz f.c], oldOf f.sz f.d⟩
  | .xopen f => ⟨[.s f.a, .s f.b], []⟩
  | .xclose f => ⟨[.s f.a, .s f.b], []⟩
  | .fld f => ⟨[.s f.p], [.vr f.d (fragRegs f.emod)]⟩
  | .fst f => ⟨[.s f.p, .vr f.x (fragRegs f.emod)], []⟩
  | .mma f => ⟨[.s f.p], [.s f.t]⟩
  | .mstat f => ⟨[], [.s f.d]⟩
  | .cpyin f => ⟨[.s f.p], [.s f.t]⟩
  | .cpyst f => ⟨[.s f.p], [.s f.t]⟩
  | .cpyx f => ⟨[.s f.p], [.s f.t]⟩
  | .cpyg f => ⟨[.s f.p], [.s f.t]⟩
  | .cpyr f => ⟨[.s f.p, .s f.x], [.s f.t]⟩
  | .bndset f => ⟨[.s f.p], []⟩
  | .bndget f => ⟨[], [.s f.d]⟩
  | .bndsel _ => ⟨[], []⟩
  | .twait f => ⟨[.s f.t], [.s f.d]⟩
  | .tpoll f => ⟨[.s f.t], [.s f.d]⟩
  | .bar f => ⟨[.s f.a], []⟩
  | .bararv f => ⟨[.s f.a], [.v f.d]⟩
  | .barwt f => ⟨[.v f.a], []⟩
  | .barq f => ⟨[], [.v f.d]⟩
  | .fork f => ⟨[.s f.p], [.s f.t]⟩
  | .fjoin _ => ⟨[], []⟩
  | .dqpush f => ⟨[.s f.a], [.s f.d]⟩
  | .dqpop f => ⟨[], [.s f.d]⟩
  | .dqsteal f => ⟨[.s f.a], [.s f.d]⟩
  | .msend f => ⟨[.vp f.p, .vr f.x (bitsOf f.emod 0 4)], []⟩
  | .mrecv f => ⟨[.vp f.p, .v f.x], [.vp f.t]⟩
  | .mprobe f => ⟨[.vp f.p], [.vp f.d]⟩
  | .go f => ⟨[.v f.a], []⟩
  | .gox f => ⟨[.vr f.a 3], []⟩
  | .segrep f => ⟨[.s f.p, .s f.x], [.s f.t]⟩
  | .boost f => ⟨[.s f.a], [.s f.d]⟩
  | .boostq f => ⟨[], [.s f.d]⟩
  | .trap _ => ⟨[], []⟩
  | .rtr _ => ⟨[], []⟩
  | .rqrd f => ⟨[.s (BitVec.ofNat 8 (bitsOf f.ymod 0 8))], [.s f.d]⟩
  | .rqwr f => ⟨[.s f.a, .s (BitVec.ofNat 8 (bitsOf f.ymod 0 8))], []⟩
  | .sysrd f => ⟨[], [.s f.d]⟩
  | .syswr f => ⟨[.s f.a], []⟩
  | .evGroupForm _ => ⟨[], []⟩
  | .evLoadReturn _ _ _ _ _ _ => ⟨[], []⟩
  | .evStoreDrain _ => ⟨[], []⟩
  | .evWritePerformed _ _ _ _ => ⟨[], []⟩
  | .evServiceWarpRequest _ _ => ⟨[], []⟩
  | .evQntApply _ => ⟨[], []⟩
  | .evDeferredFault _ _ => ⟨[], []⟩
  | .evExtentMissResolved _ _ _ => ⟨[], []⟩
  | .evMmaPass _ _ _ => ⟨[], []⟩
  | .evCopyPass _ => ⟨[], []⟩
  | .evCpyrAck _ => ⟨[], []⟩
  | .evLinkFailure _ => ⟨[], []⟩
  | .evForkAccept _ _ _ => ⟨[], []⟩
  | .evFjoinResume _ => ⟨[], []⟩
  | .evTeamRetire _ => ⟨[], []⟩
  | .evMessageArrival _ => ⟨[], []⟩
  | .evParcelEnqueue _ => ⟨[], []⟩
  | .evParcelSpill _ => ⟨[], []⟩
  | .evParcelAdmit _ _ => ⟨[], []⟩
  | .evRingDrain _ => ⟨[], []⟩
  | .evSegrepComplete _ => ⟨[], []⟩
  | .evSeghot _ _ => ⟨[], []⟩
  | .evWtimerExpire _ => ⟨[], []⟩
  | .evSleepTimeout _ => ⟨[], []⟩
  | .evSlewResume _ => ⟨[], []⟩
  | .evHang _ => ⟨[], []⟩
  | .evTeamPlace _ => ⟨[], []⟩
  | .evTeamProtection _ => ⟨[], []⟩
  | .evSliceEnd _ => ⟨[], []⟩
  | .evSoftDrainDeadline _ => ⟨[], []⟩
  | .evHaltComplete _ => ⟨[], []⟩
  | .evHardHaltLimit _ => ⟨[], []⟩
  | .evContextRestore _ => ⟨[], []⟩
  | .evFeModeWrite _ _ _ _ => ⟨[], []⟩
  | .evCtxCreate _ _ _ => ⟨[], []⟩
  | .evCtxDestroy _ _ _ => ⟨[], []⟩
  | .evGraphLoad _ _ _ => ⟨[], []⟩
  | .evGraphUnload _ _ _ => ⟨[], []⟩
  | .evGraphDone _ _ => ⟨[], []⟩
  | .evTrigger _ _ _ => ⟨[], []⟩
  | .evRunStart _ => ⟨[], []⟩
  | .evNodeLaunch _ _ => ⟨[], []⟩
  | .evRingHeadWrite _ _ _ => ⟨[], []⟩
  | .evRingInterruptTimer _ => ⟨[], []⟩
  | .evMbInWrite _ _ _ _ => ⟨[], []⟩
  | .evMbOutRead _ _ _ => ⟨[], []⟩
  | .evMbStatClear _ _ _ => ⟨[], []⟩
  | .evRegisterWrite _ _ _ _ _ => ⟨[], []⟩
  | .evUnsupportedRequest _ _ _ _ => ⟨[], []⟩
  | .evWatchCtlWrite _ _ _ _ => ⟨[], []⟩
  | .evErrStatusClear _ => ⟨[], []⟩
  | .evGetVersion => ⟨[], []⟩
  | .evGetCapabilities => ⟨[], []⟩
  | .evNegotiateAlgorithms _ => ⟨[], []⟩
  | .evGetDigests => ⟨[], []⟩
  | .evGetCertificate _ _ _ => ⟨[], []⟩
  | .evChallenge _ _ => ⟨[], []⟩
  | .evGetMeasurements _ => ⟨[], []⟩
  | .evKeyExchange _ => ⟨[], []⟩
  | .evFinish _ => ⟨[], []⟩
  | .evHeartbeat => ⟨[], []⟩
  | .evKeyUpdate => ⟨[], []⟩
  | .evEndSession => ⟨[], []⟩
  | .evIdeKm _ _ => ⟨[], []⟩
  | .evLockInterface _ => ⟨[], []⟩
  | .evStartInterface _ => ⟨[], []⟩
  | .evStopInterface _ => ⟨[], []⟩
  | .evIdeIntegrityFailure _ => ⟨[], []⟩
  | .evVfEnableClear => ⟨[], []⟩
  | .evPortCtlWrite _ _ => ⟨[], []⟩
  | .evPortLinkChange _ _ => ⟨[], []⟩
  | .evRoceSend _ _ _ _ => ⟨[], []⟩
  | .evRdmaWrite _ _ _ _ _ => ⟨[], []⟩
  | .evRdmaRead _ _ _ _ _ => ⟨[], []⟩
  | .evPeerWrite _ _ _ _ => ⟨[], []⟩
  | .evStatus => ⟨[], []⟩
  | .evLog _ => ⟨[], []⟩
  | .evFwBegin _ => ⟨[], []⟩
  | .evFwChunk _ => ⟨[], []⟩
  | .evFwCommit => ⟨[], []⟩
  | .evFwCommitDone => ⟨[], []⟩
  | .evReset _ => ⟨[], []⟩
  | .evQpSet => ⟨[], []⟩
  | .evQpClear _ => ⟨[], []⟩
  | .evKeySet => ⟨[], []⟩
  | .evKeyClear _ => ⟨[], []⟩
  | .evPowerOn _ => ⟨[], []⟩
  | .evPowerLoss => ⟨[], []⟩
  | .evThermalStep _ _ => ⟨[], []⟩
  | .evThermalShutdown _ _ => ⟨[], []⟩
  | .evThermalRelease _ _ => ⟨[], []⟩
  | .evPowerIntervalBoundary _ => ⟨[], []⟩
  | .evVoltageSettled _ => ⟨[], []⟩
  | .evPhaseFail _ _ => ⟨[], []⟩
  | .evBumpSuspect _ _ _ => ⟨[], []⟩
  | .evCanary _ => ⟨[], []⟩
  | .evClusterPowerUp _ _ => ⟨[], []⟩
  | .evInrushRecheck _ _ => ⟨[], []⟩
  | .evInrushSlow _ => ⟨[], []⟩
  | .evRampEnd _ => ⟨[], []⟩
  | .evAnneal _ _ _ _ => ⟨[], []⟩
  | .evBilletCall _ => ⟨[], []⟩
  | .evBilletTestDone _ _ _ => ⟨[], []⟩
  | .evWearAccrual _ => ⟨[], []⟩
  | .evJournalWrite => ⟨[], []⟩
  | .evCheckpoint => ⟨[], []⟩
  | .evBudgetRefill _ => ⟨[], []⟩
  | .evHmCtlGen _ => ⟨[], []⟩
  | .evHallmarkDone => ⟨[], []⟩
  | .evScrubRead _ _ _ => ⟨[], []⟩
  | .evScrubWriteback _ => ⟨[], []⟩
  | .evScrubDeadline _ => ⟨[], []⟩
  | .evPartitionDirectWrite _ _ _ => ⟨[], []⟩
  | .evResizeRequest _ _ => ⟨[], []⟩
  | .evResizeCancel _ _ => ⟨[], []⟩
  | .evResizeQuiescing => ⟨[], []⟩
  | .evResizeMigrating => ⟨[], []⟩
  | .evResizeDeadline => ⟨[], []⟩
  | .evResizeRemapping => ⟨[], []⟩
  | .evResizeRehashing => ⟨[], []⟩
  | .evResizeShootdown => ⟨[], []⟩
  | .evResizeDone => ⟨[], []⟩
  | .evInvQueue _ => ⟨[], []⟩
  | .evInvCommandStart => ⟨[], []⟩
  | .evInvDone => ⟨[], []⟩
  | .evHintMismatch _ _ _ _ _ _ => ⟨[], []⟩
  | .evQuotaRebalance _ _ _ => ⟨[], []⟩
  | .evModuleReset _ => ⟨[], []⟩
  | .evScrubTakeover _ _ => ⟨[], []⟩

/-- The field values each form accepts, register classes apart (R41 to R45 and the form's entry). -/
def Instr.fieldsOk : Instr → Bool
  | .nop _ => true
  | .sadd f => tyI.contains f.ty && only f.mod 0x80 && f.c == 0
  | .ssub f => tyI.contains f.ty && only f.mod 0x80 && f.c == 0
  | .smul f => tyI.contains f.ty && only f.mod 0x80 && f.c == 0
  | .smulh f => tyI.contains f.ty && only f.mod 0 && f.c == 0
  | .sdiv f => tyI.contains f.ty && only f.mod 0x100 && f.c == 0
  | .smin f => tyI.contains f.ty && only f.mod 0 && f.c == 0
  | .smax f => tyI.contains f.ty && only f.mod 0 && f.c == 0
  | .sand f => tyB.contains f.ty && only f.mod 0 && f.c == 0
  | .sor f => tyB.contains f.ty && only f.mod 0 && f.c == 0
  | .sxor f => tyB.contains f.ty && only f.mod 0 && f.c == 0
  | .sshl f => tySh.contains f.ty && only f.mod 0 && f.c == 0
  | .sshr f => tySh.contains f.ty && only f.mod 0 && f.c == 0
  | .sbfx f => tyI.contains f.ty && only f.mod 0 && f.c == 0
  | .sbfi f => tyB.contains f.ty && only f.mod 0
  | .sclz f => tyB.contains f.ty && only f.mod 0 && f.b == 0 && f.c == 0
  | .spopc f => tyB.contains f.ty && only f.mod 0 && f.b == 0 && f.c == 0
  | .sset f => tyI.contains f.ty && only f.mod 0x700 && f.c == 0 && decide (f.cond ≤ 5)
  | .ssel f => tyB.contains f.ty && only f.mod 0
  | .smov f => tyB.contains f.ty && only f.mod 0 && f.b == 0 && f.c == 0
  | .smovi f => [Ty.s32, .n32, .s64, .n64, .b32, .b64].contains f.ty && f.a == 0
  | .smovhi f => f.ty == .b64
  | .saddi f => tyI.contains f.ty
  | .vrdlane f => tyB.contains f.ty && only f.mod 0x3F00 && (if f.bit8 then f.c == 0 else decide (f.lane = 0))
  | .vwrlane f => tyB.contains f.ty && only f.mod 0x3F00 && (if f.bit8 then f.c == 0 else decide (f.lane = 0))
  | .ballot f => f.ty == .b32 && only f.mod 0x100 && f.c == 0
  | .pfrom f => (f.ty == .b32 || (f.ty == .b64 && !f.bit8)) && only f.mod 0x100 && f.b == 0 && f.c == 0
  | .plog f => f.ty == .b32 && only f.mod 0xF00 && decide (f.plogOp ≤ 2) && f.c == 0
  | .srd f => f.a == 0 && only f.ymod 1 && decide (f.sel.toNat ≤ 0x13) && !(f.ymod.getLsbD 0 && [0x0, 0x1, 0xB].contains f.sel.toNat)
  | .swr f => f.d == 0 && only f.ymod 1 && f.sel == 0xE
  | .bra f => f.d == 0 && f.a == 0 && f.cmod == 0 && decide (f.off.toNat % 8 = 0)
  | .brx f => f.d == 0 && only f.cmod 1 && decide (f.off.toNat % 8 = 0)
  | .call f => f.d == 0 && f.a == 0 && f.cmod == 0 && decide (f.off.toNat % 8 = 0)
  | .callx f => f.d == 0 && only f.cmod 1 && decide (f.off.toNat % 8 = 0)
  | .ret f => f.d == 0 && f.off == 0 && f.cmod == 0
  | .mkjoin f => f.ty == .b32 && f.mod == 0 && f.b == 0 && f.c == 0
  | .join f => f.ty == .b32 && f.mod == 0 && f.b == 0 && f.c == 0 && f.d == 0
  | .exit f => f.d == 0 && f.off == 0 && f.cmod == 0 && f.a == 0
  | .yield f => f.ty == .b32 && f.mod == 0 && f.a == 0 && f.b == 0 && f.c == 0 && f.d == 0
  | .mbrd f => f.a == 0 && decide (f.sel.toNat ≤ 7) && f.ymod == 0
  | .mbwr f => f.d == 0 && decide (f.sel.toNat ≤ 7) && f.ymod == 0
  | .sleep f => f.ty == .n32 && f.d == 0 && f.a == 0
  | .evsig f => f.ty == .n32 && f.d == 0 && f.a == 0 && decide (f.imm.toNat ≤ 1)
  | .vadd f => (tyI ++ tyP).contains f.ty && only f.mod 8 && f.c == 0 && !f.rc
  | .vsub f => (tyI ++ tyP).contains f.ty && only f.mod 8 && f.c == 0 && !f.rc
  | .vmul f => (tyI ++ tyP).contains f.ty && only f.mod 8 && f.c == 0 && !f.rc
  | .vmulh f => (tyI ++ [Ty.s16x2, .n16x2]).contains f.ty && only f.mod 0 && f.c == 0 && !f.rc
  | .vmad f => (tyI ++ [Ty.s16x2, .n16x2]).contains f.ty && only f.mod 0x18 && (!f.bit8 || f.ty == .s32 || f.ty == .n32)
  | .vmin f => (tyI ++ tyP).contains f.ty && only f.mod 0 && f.c == 0 && !f.rc
  | .vmax f => (tyI ++ tyP).contains f.ty && only f.mod 0 && f.c == 0 && !f.rc
  | .vabsd f => (tyI ++ tyP).contains f.ty && only f.mod 0 && f.c == 0 && !f.rc
  | .vand f => tyB.contains f.ty && only f.mod 0x10 && f.c == 0 && !f.rc
  | .vor f => tyB.contains f.ty && only f.mod 0x10 && f.c == 0 && !f.rc
  | .vxor f => tyB.contains f.ty && only f.mod 0x10 && f.c == 0 && !f.rc
  | .vshl f => (tyB ++ tyI ++ tyP).contains f.ty && only f.mod 0 && f.c == 0 && !f.rc
  | .vshr f => (tyB ++ tyI ++ tyP).contains f.ty && only f.mod 0 && f.c == 0 && !f.rc
  | .vbfx f => tyI.contains f.ty && only f.mod 0 && f.c == 0 && !f.rc
  | .vbfi f => tyB.contains f.ty && only f.mod 0
  | .vclz f => tyB.contains f.ty && only f.mod 0 && f.b == 0 && !f.rb && f.c == 0 && !f.rc && !f.sb
  | .vpopc f => tyB.contains f.ty && only f.mod 0 && f.b == 0 && !f.rb && f.c == 0 && !f.rc && !f.sb
  | .vaddc f => [Ty.n32].contains f.ty && only f.mod 0x1F0 && (f.bit8 || (f.c == 0 && !f.rc))
  | .vdot4 f => tyP.contains f.ty && only f.mod 0x18
  | .vperm f => [Ty.b32].contains f.ty && only f.mod 0
  | .vshfl f => tyB.contains f.ty && only f.mod 0xFF7 && !f.sb && decide (f.gw ≤ 4) && (if f.imm then f.c == 0 && !f.rc else decide (f.k = 0)) && (decide (f.mode ≠ 3) || (f.imm && decide (f.k = 0)))
  | .vmbcnt f => [Ty.b32].contains f.ty && only f.mod 0x30 && f.c == 0 && !f.rc && !f.sb
  | .vcmp f => tyI.contains f.ty && only f.mod 0x70 && f.c == 0 && !f.rc && decide (f.cond3 ≤ 5)
  | .vsel f => tyB.contains f.ty && only f.mod 0x10
  | .vmov f => tyB.contains f.ty && f.mod == 0 && f.c == 0 && !f.rc && (if f.sb then f.a == 0 && !f.ra else f.b == 0 && !f.rb)
  | .vmovi f => [Ty.b32, .s32, .n32, .f32, .f16x2, .bf16x2, .s64, .n64, .f64].contains f.ty && f.a == 0
  | .vaddi f => tyI.contains f.ty
  | .vfadd f => tyF.contains f.ty && only f.mod 0xF && f.c == 0 && !f.rc && decide (f.rm ≤ 4)
  | .vfsub f => tyF.contains f.ty && only f.mod 0xF && f.c == 0 && !f.rc && decide (f.rm ≤ 4)
  | .vfmul f => tyF.contains f.ty && only f.mod 0xF && f.c == 0 && !f.rc && decide (f.rm ≤ 4)
  | .vfma f => tyF.contains f.ty && only f.mod 0xF && decide (f.rm ≤ 4)
  | .vfmin f => tyF.contains f.ty && only f.mod 0 && f.c == 0 && !f.rc
  | .vfmax f => tyF.contains f.ty && only f.mod 0 && f.c == 0 && !f.rc
  | .vfsgn f => tyF.contains f.ty && only f.mod 0x30 && f.c == 0 && !f.rc && !f.sb && decide (f.mode ≠ 3)
  | .vfcmp f => tyF.contains f.ty && only f.mod 0x1F0 && f.c == 0 && !f.rc && decide (f.cond4 ≤ 7) && (!f.bit12 || f.ty == .f16x2 || f.ty == .bf16x2)
  | .vfclass f => tyF.contains f.ty && only f.mod 0 && f.b == 0 && !f.rb && f.c == 0 && !f.rc && !f.sb
  | .vfrnd f => tyF.contains f.ty && only f.mod 7 && f.b == 0 && !f.rb && f.c == 0 && !f.rc && !f.sb && decide (f.rm ≤ 4)
  | .vfldx f => tyF.contains f.ty && only f.mod 0xF && f.c == 0 && !f.rc && decide (f.rm ≤ 4)
  | .vfdiv f => tyF.contains f.ty && only f.mod 0xF && f.c == 0 && !f.rc && decide (f.rm ≤ 4)
  | .vfsqrt f => tyF.contains f.ty && only f.mod 7 && f.b == 0 && !f.rb && f.c == 0 && !f.rc && !f.sb && decide (f.rm ≤ 4)
  | .vfrcp f => tyG.contains f.ty && only f.mod 0xF && f.b == 0 && !f.rb && f.c == 0 && !f.rc && !f.sb && decide (f.rm ≤ 4)
  | .vfrsq f => tyG.contains f.ty && only f.mod 0xF && f.b == 0 && !f.rb && f.c == 0 && !f.rc && !f.sb && decide (f.rm ≤ 4)
  | .vfexp2 f => tyG.contains f.ty && only f.mod 0xF && f.b == 0 && !f.rb && f.c == 0 && !f.rc && !f.sb && decide (f.rm ≤ 4)
  | .vflog2 f => tyG.contains f.ty && only f.mod 7 && f.b == 0 && !f.rb && f.c == 0 && !f.rc && !f.sb && decide (f.rm ≤ 4)
  | .vftanh f => tyG.contains f.ty && only f.mod 7 && f.b == 0 && !f.rb && f.c == 0 && !f.rc && !f.sb && decide (f.rm ≤ 4)
  | .vfsigm f => tyG.contains f.ty && only f.mod 7 && f.b == 0 && !f.rb && f.c == 0 && !f.rc && !f.sb && decide (f.rm ≤ 4)
  | .vcvt f => (match tyOfNat f.cond4 with | some src => cvtPair src f.ty && (if src == .f32 && (f.ty == .f16x2 || f.ty == .bf16x2) then true else f.b == 0 && !f.rb && !f.sb) && (!f.bit12 || ((src == .f16x2 || src == .bf16x2) && f.ty == .f32)) | none => false) && only f.mod 0x1FF && f.c == 0 && !f.rc && decide (f.rm ≤ 4)
  | .vcvt8 f => tyG.contains f.ty && decide (f.rm ≤ 4) && decide (f.prec ≠ 0) && (f.ty == .f32 || !f.hi || f.bit8) && (!(f.bit8) || (f.b == 0 && !f.rb && !f.sb && !f.ef && (f.ty == .f32 || !f.hi))) && (f.ty == .f32 || !f.sb) && (if f.ef then decide (f.rm = 0) else f.c == 0 && !f.rc)
  | .vcvtmx f => tyG.contains f.ty && decide (f.rm ≤ 4) && decide (f.prec ≠ 0) && !f.sb && !f.rc && (f.ty == .f32 || !f.bit8) && (!f.ef || decide (f.rm = 0))
  | .ld f => f.b == 0 && !f.chk && (f.ord == .rlx || f.ord == .acq) && (f.ord != .rlx || f.scope == .core)
  | .st f => f.d == 0 && !f.by_ && (!f.chk || f.sz != .z8) && (f.ord == .rlx || f.ord == .rel) && (f.ord != .rlx || f.scope == .core)
  | .sld f => f.b == 0 && f.as_ && f.sz != .z128 && !f.chk && (f.ord == .rlx || f.ord == .acq) && (f.ord != .rlx || f.scope == .core)
  | .sst f => f.d == 0 && f.as_ && f.sz != .z128 && !f.by_ && !f.chk && (f.ord == .rlx || f.ord == .rel) && (f.ord != .rlx || f.scope == .core)
  | .lds f => f.b == 0 && !f.chk && !f.by_ && f.rdist == .near && (f.scope == .core || f.scope == .clus) && (f.ord == .rlx || f.ord == .acq) && (f.ord != .rlx || f.scope == .core)
  | .sts f => f.d == 0 && !f.by_ && f.rdist == .near && (!f.chk || f.sz != .z8) && (f.scope == .core || f.scope == .clus) && (f.ord == .rlx || f.ord == .rel) && (f.ord != .rlx || f.scope == .core)
  | .ldx f => f.b == 0 && !f.chk && !f.by_ && f.rdist == .near && (f.scope == .core || f.scope == .clus) && (f.ord == .rlx || f.ord == .acq) && (f.ord != .rlx || f.scope == .core)
  | .stx f => f.d == 0 && !f.by_ && f.rdist == .near && (!f.chk || f.sz != .z8) && (f.scope == .core || f.scope == .clus) && (f.ord == .rlx || f.ord == .rel) && (f.ord != .rlx || f.scope == .core)
  | .stcmp f => f.as_ && !f.by_ && (!f.chk || f.sz != .z8) && (f.ord == .rlx) && (f.ord != .rlx || f.scope == .core)
  | .ldexp f => f.b == 0 && f.as_ && !f.chk && (f.ord == .rlx) && (f.ord != .rlx || f.scope == .core)
  | .pref f => f.d == 0 && f.b == 0 && f.sz == .z8 && !f.chk && (f.ord == .rlx) && (f.ord != .rlx || f.scope == .core)
  | .linv f => f.d == 0 && f.a == 0 && f.b == 0 && f.ofs == 0 && f.sz == .z8 && !f.chk && !f.by_ && f.rdist == .near && !f.as_ && (f.ord == .rlx) && (f.ord != .rlx || f.scope == .core)
  | .fence f => f.d == 0 && f.a == 0 && f.b == 0 && f.ofs == 0 && f.sz == .z8 && !f.chk && !f.by_ && f.rdist == .near && !f.as_ && (f.ord == .acq || f.ord == .rel || f.ord == .ar) && (f.ord != .rlx || f.scope == .core)
  | .atom f => (f.sz == .z32 || f.sz == .z64) && (f.use_ == .none || f.ord == .rlx) && (f.ord != .rlx || f.scope == .core) && f.c == 0 && (f.ret || f.d == 0) && f.use_ != .spec && !(f.use_ == .com && (f.aop == .fadd || f.aop == .exch)) && !(f.aop == .xadd && (f.ret || !(f.use_ == .none || f.use_ == .com))) && !(f.use_ == .qnt && f.ret)
  | .acas f => (f.sz == .z32 || f.sz == .z64) && (f.use_ == .none || f.ord == .rlx) && (f.ord != .rlx || f.scope == .core) && f.aop == .add && f.ret && f.use_ != .qnt
  | .atoms f => (f.sz == .z32 || f.sz == .z64) && (f.use_ == .none || f.ord == .rlx) && (f.ord != .rlx || f.scope == .core) && (f.scope == .core || f.scope == .clus) && f.c == 0 && (f.ret || f.d == 0) && f.aop != .xadd && f.use_ != .qnt && f.use_ != .spec && !(f.use_ == .com && (f.aop == .fadd || f.aop == .exch))
  | .acass f => (f.sz == .z32 || f.sz == .z64) && (f.use_ == .none || f.ord == .rlx) && (f.ord != .rlx || f.scope == .core) && (f.scope == .core || f.scope == .clus) && f.aop == .add && f.ret && f.use_ != .qnt && f.use_ != .spec
  | .xopen f => f.aop == .add && f.sz == .z64 && f.use_ == .none && f.ord == .rlx && f.scope == .core && !f.ret && f.as_ && f.c == 0 && f.d == 0
  | .xclose f => f.aop == .add && f.sz == .z64 && f.use_ == .none && f.ord == .rlx && f.scope == .core && !f.ret && f.as_ && f.c == 0 && f.d == 0
  | .fld f => f.t == 0 && f.x == 0 && only f.emod 0x6F && decide (bitsOf f.emod 0 3 ≠ 7) && decide (bitsOf f.emod 5 2 ≠ 3) && (!f.emod.getLsbD 3 || decide (bitsOf f.emod 5 2 = 0)) && (decide (bitsOf f.emod 5 2 ≠ 2) || decide (f.d.toNat % 2 = 0))
  | .fst f => f.t == 0 && f.d == 0 && only f.emod 0x7F && decide (bitsOf f.emod 0 3 ≠ 7) && decide (bitsOf f.emod 5 2 ≠ 3) && (!f.emod.getLsbD 3 || decide (bitsOf f.emod 5 2 = 0)) && (!f.emod.getLsbD 4 || decide (bitsOf f.emod 5 2 ≠ 0)) && (decide (bitsOf f.emod 5 2 ≠ 2) || decide (f.x.toNat % 2 = 0))
  | .mma f => f.d == 0 && f.x == 0 && f.emod == 0
  | .mstat f => f.p == 0 && f.t == 0 && f.x == 0 && only f.emod 7 && decide (bitsOf f.emod 0 2 ≤ 2) && !(f.emod.getLsbD 2 && decide (bitsOf f.emod 0 2 = 2))
  | .cpyin f => f.d == 0 && f.x == 0 && only f.emod 3
  | .cpyst f => f.d == 0 && f.x == 0 && only f.emod 3
  | .cpyx f => f.d == 0 && f.x == 0 && only f.emod 3
  | .cpyg f => f.d == 0 && f.x == 0 && only f.emod 3
  | .cpyr f => f.d == 0 && only f.emod 3
  | .bndset f => f.d == 0 && f.t == 0 && only f.emod 1 && decide (f.x.toNat < 48)
  | .bndget f => f.p == 0 && f.t == 0 && decide (f.x.toNat < 16) && only f.emod 3 && (f.emod.getLsbD 0 || !f.emod.getLsbD 1)
  | .bndsel f => f.d == 0 && f.p == 0 && f.t == 0 && decide (f.x.toNat < 16) && f.emod == 0
  | .twait f => f.p == 0 && f.x == 0 && f.emod == 0
  | .tpoll f => f.p == 0 && f.x == 0 && f.emod == 0
  | .bar f => f.d == 0 && only f.ymod 3 && decide (f.sel.toNat ≤ barMax (bitsOf f.ymod 0 2)) && (decide (bitsOf f.ymod 0 2 = 1) || f.a == 63)
  | .bararv f => only f.ymod 3 && decide (f.sel.toNat ≤ barMax (bitsOf f.ymod 0 2)) && (decide (bitsOf f.ymod 0 2 = 1) || f.a == 63)
  | .barwt f => f.d == 0 && only f.ymod 3 && decide (f.sel.toNat ≤ barMax (bitsOf f.ymod 0 2))
  | .barq f => f.a == 0 && only f.ymod 7 && decide (f.sel.toNat ≤ barMax (bitsOf f.ymod 0 2))
  | .fork f => f.d == 0 && f.x == 0 && f.emod == 0
  | .fjoin f => f.d == 0 && f.a == 0 && f.sel == 0 && f.ymod == 0
  | .dqpush f => f.ty == .b32 && f.mod == 0 && f.b == 0 && f.c == 0
  | .dqpop f => f.ty == .b32 && f.mod == 0 && f.a == 0 && f.b == 0 && f.c == 0
  | .dqsteal f => f.ty == .b32 && f.mod == 0 && f.b == 0 && f.c == 0
  | .msend f => f.d == 0 && f.t == 0 && only f.emod 15 && decide (bitsOf f.emod 0 4 ≤ 8)
  | .mrecv f => f.d == 0 && f.emod == 0
  | .mprobe f => f.x == 0 && f.t == 0 && f.emod == 0
  | .go f => f.d == 0 && only f.cmod 1 && decide (f.off.toNat % 8 = 0)
  | .gox f => f.d == 0 && decide (f.a.toNat % 4 = 0) && only f.cmod 1 && decide (f.off.toNat % 8 = 0)
  | .segrep f => f.d == 0 && f.emod == 0
  | .boost f => decide (10 ≤ f.sel.toNat ∧ f.sel.toNat ≤ 16) && f.ymod == 0
  | .boostq f => f.a == 0 && decide (f.sel.toNat ≤ 3) && f.ymod == 0
  | .trap f => f.d == 0 && f.a == 0 && f.ymod == 0
  | .rtr f => f.d == 0 && f.off == 0 && f.a == 0 && f.cmod == 0
  | .rqrd f => f.a == 0 && only f.ymod 0xFF && [0x0, 0x1, 0x2, 0x3, 0x10, 0x11, 0x12, 0x13, 0x20].contains f.sel.toNat
  | .rqwr f => f.d == 0 && only f.ymod 0xFF && [0x0, 0x1, 0x3, 0x10, 0x11, 0x12, 0x20].contains f.sel.toNat
  | .sysrd f => f.a == 0 && f.ymod == 0 && (match selRow f.sel.toNat with | some r => r.access != .wo | none => false)
  | .syswr f => f.d == 0 && f.ymod == 0 && (match selRow f.sel.toNat with | some r => r.access != .ro | none => false)
  | .evGroupForm _ => true
  | .evLoadReturn _ _ _ _ _ _ => true
  | .evStoreDrain _ => true
  | .evWritePerformed _ _ _ _ => true
  | .evServiceWarpRequest _ _ => true
  | .evQntApply _ => true
  | .evDeferredFault _ _ => true
  | .evExtentMissResolved _ _ _ => true
  | .evMmaPass _ _ _ => true
  | .evCopyPass _ => true
  | .evCpyrAck _ => true
  | .evLinkFailure _ => true
  | .evForkAccept _ _ _ => true
  | .evFjoinResume _ => true
  | .evTeamRetire _ => true
  | .evMessageArrival _ => true
  | .evParcelEnqueue _ => true
  | .evParcelSpill _ => true
  | .evParcelAdmit _ _ => true
  | .evRingDrain _ => true
  | .evSegrepComplete _ => true
  | .evSeghot _ _ => true
  | .evWtimerExpire _ => true
  | .evSleepTimeout _ => true
  | .evSlewResume _ => true
  | .evHang _ => true
  | .evTeamPlace _ => true
  | .evTeamProtection _ => true
  | .evSliceEnd _ => true
  | .evSoftDrainDeadline _ => true
  | .evHaltComplete _ => true
  | .evHardHaltLimit _ => true
  | .evContextRestore _ => true
  | .evFeModeWrite _ _ _ _ => true
  | .evCtxCreate _ _ _ => true
  | .evCtxDestroy _ _ _ => true
  | .evGraphLoad _ _ _ => true
  | .evGraphUnload _ _ _ => true
  | .evGraphDone _ _ => true
  | .evTrigger _ _ _ => true
  | .evRunStart _ => true
  | .evNodeLaunch _ _ => true
  | .evRingHeadWrite _ _ _ => true
  | .evRingInterruptTimer _ => true
  | .evMbInWrite _ _ _ _ => true
  | .evMbOutRead _ _ _ => true
  | .evMbStatClear _ _ _ => true
  | .evRegisterWrite _ _ _ _ _ => true
  | .evUnsupportedRequest _ _ _ _ => true
  | .evWatchCtlWrite _ _ _ _ => true
  | .evErrStatusClear _ => true
  | .evGetVersion => true
  | .evGetCapabilities => true
  | .evNegotiateAlgorithms _ => true
  | .evGetDigests => true
  | .evGetCertificate _ _ _ => true
  | .evChallenge _ _ => true
  | .evGetMeasurements _ => true
  | .evKeyExchange _ => true
  | .evFinish _ => true
  | .evHeartbeat => true
  | .evKeyUpdate => true
  | .evEndSession => true
  | .evIdeKm _ _ => true
  | .evLockInterface _ => true
  | .evStartInterface _ => true
  | .evStopInterface _ => true
  | .evIdeIntegrityFailure _ => true
  | .evVfEnableClear => true
  | .evPortCtlWrite _ _ => true
  | .evPortLinkChange _ _ => true
  | .evRoceSend _ _ _ _ => true
  | .evRdmaWrite _ _ _ _ _ => true
  | .evRdmaRead _ _ _ _ _ => true
  | .evPeerWrite _ _ _ _ => true
  | .evStatus => true
  | .evLog _ => true
  | .evFwBegin _ => true
  | .evFwChunk _ => true
  | .evFwCommit => true
  | .evFwCommitDone => true
  | .evReset _ => true
  | .evQpSet => true
  | .evQpClear _ => true
  | .evKeySet => true
  | .evKeyClear _ => true
  | .evPowerOn _ => true
  | .evPowerLoss => true
  | .evThermalStep _ _ => true
  | .evThermalShutdown _ _ => true
  | .evThermalRelease _ _ => true
  | .evPowerIntervalBoundary _ => true
  | .evVoltageSettled _ => true
  | .evPhaseFail _ _ => true
  | .evBumpSuspect _ _ _ => true
  | .evCanary _ => true
  | .evClusterPowerUp _ _ => true
  | .evInrushRecheck _ _ => true
  | .evInrushSlow _ => true
  | .evRampEnd _ => true
  | .evAnneal _ _ _ _ => true
  | .evBilletCall _ => true
  | .evBilletTestDone _ _ _ => true
  | .evWearAccrual _ => true
  | .evJournalWrite => true
  | .evCheckpoint => true
  | .evBudgetRefill _ => true
  | .evHmCtlGen _ => true
  | .evHallmarkDone => true
  | .evScrubRead _ _ _ => true
  | .evScrubWriteback _ => true
  | .evScrubDeadline _ => true
  | .evPartitionDirectWrite _ _ _ => true
  | .evResizeRequest _ _ => true
  | .evResizeCancel _ _ => true
  | .evResizeQuiescing => true
  | .evResizeMigrating => true
  | .evResizeDeadline => true
  | .evResizeRemapping => true
  | .evResizeRehashing => true
  | .evResizeShootdown => true
  | .evResizeDone => true
  | .evInvQueue _ => true
  | .evInvCommandStart => true
  | .evInvDone => true
  | .evHintMismatch _ _ _ _ _ _ => true
  | .evQuotaRebalance _ _ _ => true
  | .evModuleReset _ => true
  | .evScrubTakeover _ _ => true

/-- An instruction is well formed when its fields are ones its form accepts (R41) and every register field is of its operand's
class (R39). -/
def Instr.wf (i : Instr) : Bool :=
  i.fieldsOk && i.shape.reads.all (Opnd.ok false) && i.shape.writes.all (Opnd.ok true)

/-- The forms a travelling grid refuses whatever their registers (R97, R115, R143, R153, R166, R196, R282). -/
def Instr.travelBarred : Instr → Bool
  | .ballot _ | .vrdlane _ | .vwrlane _ | .join _ | .mkjoin _ => true
  | .vshfl _ | .vmbcnt _ | .vcvtmx _ => true
  | .vcvt8 f => f.ef
  | .ldx _ | .stx _ | .stcmp _ | .ldexp _ => true
  | .fld _ | .fst _ | .mma _ | .mstat _ | .cpyin _ | .cpyst _ | .cpyx _ | .cpyg _ | .cpyr _ => true
  | .bndset _ | .bndget _ | .bndsel _ | .twait _ | .tpoll _ => true
  | .fork _ | .fjoin _ | .dqpush _ | .dqpop _ | .dqsteal _ | .segrep _ => true
  | .bar f | .bararv f | .barwt f | .barq f => decide (bitsOf f.ymod 0 2 ≠ 3)
  | _ => false

/-- The two uses of s61 and s62 that a travelling thread in handler state has: RQRD and RQWR, and VMOV.b64 with SB = 1
(R196, R293). -/
def Instr.handlerScalar : Instr → Bool
  | .rqrd _ | .rqwr _ => true
  | .vmov f => f.sb && f.ty == .b64
  | _ => false

/-- GO and GOX, which only a travelling grid admits (R196). -/
def Instr.travelOnly : Instr → Bool
  | .go _ | .gox _ => true
  | _ => false

/-- An operand within the launch's limits, with R293's exception for s61 and s62. -/
def Opnd.withinFor (l : Limits) (exempt : Bool) (o : Opnd) : Bool :=
  o.within l ||
    (match o with
     | .s r => l.travel && l.handler && exempt && (r == 61 || r == 62)
     | _ => false)

/-- What R49's ENCODING rows check against the launch: the limits of R39 and the forms each kind of grid admits. -/
def Instr.allowed (l : Limits) (i : Instr) : Bool :=
  (if l.travel then !i.travelBarred else !i.travelOnly)
    && (i.shape.reads ++ i.shape.writes).all (Opnd.withinFor l i.handlerScalar)

end Sys2Proof
end

