-- ==== Sys2Proof/Decode.lean ====
section
/-!
DEFINITION. Decode: from a 64-bit code word to an instruction or a decode fault, total, and the encoder written from the same
encoding tables (R30, R31, R37, R40, R42 to R46, R48, R49). Which field values a form accepts is `Instr.wf`.
-/
namespace Sys2Proof

/-- Bits [lo + n − 1 : lo] of a word. -/
def bits (w : W64) (lo n : Nat) : BitVec n := w.extractLsb' lo n

/-- One bit of a word. -/
def bit (w : W64) (i : Nat) : Bool := w.getLsbD i

/-- GUARD codes (R37). -/
def Guard.code : Guard → BitVec 4
  | .always => 0
  | .pos p => BitVec.ofNat 4 (p.val + 1)
  | .neg p => BitVec.ofNat 4 (p.val + 9)

/-- The guard a code stands for; 8 is reserved (R37). -/
def Guard.ofCode (c : BitVec 4) : Option Guard :=
  match c.toNat with
  | 0 => some .always
  | 1 => some (.pos 0) | 2 => some (.pos 1) | 3 => some (.pos 2) | 4 => some (.pos 3)
  | 5 => some (.pos 4) | 6 => some (.pos 5) | 7 => some (.pos 6)
  | 9 => some (.neg 0) | 10 => some (.neg 1) | 11 => some (.neg 2) | 12 => some (.neg 3)
  | 13 => some (.neg 4) | 14 => some (.neg 5) | 15 => some (.neg 6)
  | _ => none

/-- TY codes (R42). -/
def Ty.code : Ty → BitVec 4
  | .b32 => 0 | .s32 => 1 | .n32 => 2 | .s64 => 3 | .n64 => 4 | .f32 => 5 | .f16x2 => 6
  | .bf16x2 => 7 | .f64 => 8 | .s16x2 => 9 | .n16x2 => 10 | .s8x4 => 11 | .n8x4 => 12 | .b64 => 13

/-- The type a code stands for; 14 and 15 are reserved (R42). -/
def Ty.ofCode (c : BitVec 4) : Option Ty :=
  match c.toNat with
  | 0 => some .b32 | 1 => some .s32 | 2 => some .n32 | 3 => some .s64 | 4 => some .n64
  | 5 => some .f32 | 6 => some .f16x2 | 7 => some .bf16x2 | 8 => some .f64 | 9 => some .s16x2
  | 10 => some .n16x2 | 11 => some .s8x4 | 12 => some .n8x4 | 13 => some .b64
  | _ => none

/-- SZ codes (R44). -/
def Sz.code : Sz → BitVec 3
  | .z8 => 0 | .z16 => 1 | .z32 => 2 | .z64 => 3 | .z128 => 4

/-- The size a code stands for; 5 to 7 are reserved (R44). -/
def Sz.ofCode (c : BitVec 3) : Option Sz :=
  match c.toNat with
  | 0 => some .z8 | 1 => some .z16 | 2 => some .z32 | 3 => some .z64 | 4 => some .z128
  | _ => none

/-- RDIST codes (R44). -/
def Rdist.code : Rdist → BitVec 2
  | .near => 0 | .mid => 1 | .far => 2 | .stream => 3

/-- The hint a code stands for (R44). -/
def Rdist.ofCode (c : BitVec 2) : Rdist :=
  match c.toNat with
  | 0 => .near | 1 => .mid | 2 => .far | _ => .stream

/-- ORD codes (R44). -/
def Ord.code : Ord → BitVec 2
  | .rlx => 0 | .acq => 1 | .rel => 2 | .ar => 3

/-- The order a code stands for (R44). -/
def Ord.ofCode (c : BitVec 2) : Ord :=
  match c.toNat with
  | 0 => .rlx | 1 => .acq | 2 => .rel | _ => .ar

/-- SCOPE codes of format M (R44). -/
def Scope.code : Scope → BitVec 2
  | .core => 0 | .clus => 1 | .pkg => 2 | .sys => 3

/-- The scope a code of format M stands for (R44). -/
def Scope.ofCode (c : BitVec 2) : Scope :=
  match c.toNat with
  | 0 => .core | 1 => .clus | 2 => .pkg | _ => .sys

/-- SCOPE codes of format MA (R44). -/
def Scope.code3 : Scope → BitVec 3
  | .core => 0 | .clus => 1 | .pkg => 2 | .sys => 3

/-- The scope a code of format MA stands for; 4 to 7 are reserved (R44). -/
def Scope.ofCode3 (c : BitVec 3) : Option Scope :=
  match c.toNat with
  | 0 => some .core | 1 => some .clus | 2 => some .pkg | 3 => some .sys
  | _ => none

/-- W codes (R44). -/
def Wctr.code : Wctr → BitVec 3
  | .cnt n => BitVec.ofNat 3 n.val
  | .none => 6

/-- The counter a code stands for; 7 is reserved (R44). -/
def Wctr.ofCode (c : BitVec 3) : Option Wctr :=
  match c.toNat with
  | 0 => some (.cnt 0) | 1 => some (.cnt 1) | 2 => some (.cnt 2) | 3 => some (.cnt 3)
  | 4 => some (.cnt 4) | 5 => some (.cnt 5) | 6 => some .none
  | _ => Option.none

/-- AOP codes (R45). -/
def Aop.code : Aop → BitVec 4
  | .add => 0 | .fadd => 1 | .xadd => 2 | .smin => 3 | .smax => 4 | .umin => 5 | .umax => 6
  | .fmin => 7 | .fmax => 8 | .and => 9 | .or => 10 | .xor => 11 | .exch => 12

/-- The operation a code stands for; 13 to 15 are reserved (R45). -/
def Aop.ofCode (c : BitVec 4) : Option Aop :=
  match c.toNat with
  | 0 => some .add | 1 => some .fadd | 2 => some .xadd | 3 => some .smin | 4 => some .smax
  | 5 => some .umin | 6 => some .umax | 7 => some .fmin | 8 => some .fmax | 9 => some .and
  | 10 => some .or | 11 => some .xor | 12 => some .exch
  | _ => none

/-- USE codes (R45). -/
def Use.code : Use → BitVec 3
  | .none => 0 | .unp => 1 | .com => 2 | .nord => 3 | .qnt => 4 | .spec => 5

/-- The use a code stands for; 6 and 7 are reserved (R45). -/
def Use.ofCode (c : BitVec 3) : Option Use :=
  match c.toNat with
  | 0 => some .none | 1 => some .unp | 2 => some .com | 3 => some .nord | 4 => some .qnt | 5 => some .spec
  | _ => Option.none

/-- A bit as one bit of a word. -/
def b1 (b : Bool) : BitVec 1 := BitVec.ofBool b

/-- The VR fields of a word (R40). -/
def parseVr (w : W64) : Option Vr := do
  let g ← Guard.ofCode (bits w 52 4)
  let ty ← Ty.ofCode (bits w 16 4)
  pure { g := g, d := bits w 44 8, a := bits w 36 8, b := bits w 28 8, c := bits w 20 8, ty := ty,
         mod := bits w 4 12, ra := bit w 3, rb := bit w 2, rc := bit w 1, sb := bit w 0 }

/-- The word of a VR form (R37, R40). -/
def Vr.word (op : BitVec 8) (f : Vr) : W64 :=
  op ++ f.g.code ++ f.d ++ f.a ++ f.b ++ f.c ++ f.ty.code ++ f.mod ++ b1 f.ra ++ b1 f.rb ++ b1 f.rc ++ b1 f.sb

/-- The VI or SI fields of a word (R40). -/
def parseIm (w : W64) : Option Im := do
  let g ← Guard.ofCode (bits w 52 4)
  let ty ← Ty.ofCode (bits w 0 4)
  pure { g := g, d := bits w 44 8, a := bits w 36 8, imm := bits w 4 32, ty := ty }

/-- The word of a VI or SI form (R37, R40). -/
def Im.word (op : BitVec 8) (f : Im) : W64 := op ++ f.g.code ++ f.d ++ f.a ++ f.imm ++ f.ty.code

/-- The SR fields of a word (R40). -/
def parseSr (w : W64) : Option Sr := do
  let g ← Guard.ofCode (bits w 52 4)
  let ty ← Ty.ofCode (bits w 16 4)
  pure { g := g, d := bits w 44 8, a := bits w 36 8, b := bits w 28 8, c := bits w 20 8, ty := ty, mod := bits w 0 16 }

/-- The word of an SR form (R37, R40). -/
def Sr.word (op : BitVec 8) (f : Sr) : W64 :=
  op ++ f.g.code ++ f.d ++ f.a ++ f.b ++ f.c ++ f.ty.code ++ f.mod

/-- The M fields of a word (R40, R44). -/
def parseMe (w : W64) : Option Me := do
  let g ← Guard.ofCode (bits w 52 4)
  let sz ← Sz.ofCode (bits w 11 3)
  let wc ← Wctr.ofCode (bits w 1 3)
  pure { g := g, d := bits w 44 8, a := bits w 36 8, b := bits w 28 8, ofs := bits w 15 13, chk := bit w 14, sz := sz,
         rdist := Rdist.ofCode (bits w 9 2), by_ := bit w 8, ord := Ord.ofCode (bits w 6 2),
         scope := Scope.ofCode (bits w 4 2), w := wc, as_ := bit w 0 }

/-- The word of an M form (R37, R40, R44). -/
def Me.word (op : BitVec 8) (f : Me) : W64 :=
  op ++ f.g.code ++ f.d ++ f.a ++ f.b ++ f.ofs ++ b1 f.chk ++ f.sz.code ++ f.rdist.code ++ b1 f.by_ ++ f.ord.code
    ++ f.scope.code ++ f.w.code ++ b1 f.as_

/-- The MA fields of a word (R40, R44, R45). -/
def parseMa (w : W64) : Option Ma := do
  let g ← Guard.ofCode (bits w 52 4)
  let aop ← Aop.ofCode (bits w 16 4)
  let use_ ← Use.ofCode (bits w 13 3)
  let scope ← Scope.ofCode3 (bits w 10 3)
  let sz ← Sz.ofCode (bits w 5 3)
  let wc ← Wctr.ofCode (bits w 1 3)
  pure { g := g, d := bits w 44 8, a := bits w 36 8, b := bits w 28 8, c := bits w 20 8, aop := aop, use_ := use_,
         scope := scope, ord := Ord.ofCode (bits w 8 2), sz := sz, ret := bit w 4, w := wc, as_ := bit w 0 }

/-- The word of an MA form (R37, R40, R44, R45). -/
def Ma.word (op : BitVec 8) (f : Ma) : W64 :=
  op ++ f.g.code ++ f.d ++ f.a ++ f.b ++ f.c ++ f.aop.code ++ f.use_.code ++ f.scope.code3 ++ f.ord.code ++ f.sz.code
    ++ b1 f.ret ++ f.w.code ++ b1 f.as_

/-- The E fields of a word; bits [3:0] are reserved (R40, R41). -/
def parseEn (w : W64) : Option En := do
  let g ← Guard.ofCode (bits w 52 4)
  if bits w 0 4 = 0 then
    pure { g := g, d := bits w 44 8, p := bits w 36 8, t := bits w 28 8, x := bits w 20 8, emod := bits w 4 16 }
  else none

/-- The word of an E form (R37, R40). -/
def En.word (op : BitVec 8) (f : En) : W64 :=
  op ++ f.g.code ++ f.d ++ f.p ++ f.t ++ f.x ++ f.emod ++ (0 : BitVec 4)

/-- The C fields of a word (R40). -/
def parseCt (w : W64) : Option Ct := do
  let g ← Guard.ofCode (bits w 52 4)
  pure { g := g, d := bits w 44 8, off := bits w 12 32, a := bits w 4 8, cmod := bits w 0 4 }

/-- The word of a C form (R37, R40). -/
def Ct.word (op : BitVec 8) (f : Ct) : W64 := op ++ f.g.code ++ f.d ++ f.off ++ f.a ++ f.cmod

/-- The Y fields of a word; bits [3:0] are reserved (R40, R41). -/
def parseYf (w : W64) : Option Yf := do
  let g ← Guard.ofCode (bits w 52 4)
  if bits w 0 4 = 0 then
    pure { g := g, d := bits w 44 8, a := bits w 36 8, sel := bits w 20 16, ymod := bits w 4 16 }
  else none

/-- The word of a Y form (R37, R40). -/
def Yf.word (op : BitVec 8) (f : Yf) : W64 := op ++ f.g.code ++ f.d ++ f.a ++ f.sel ++ f.ymod ++ (0 : BitVec 4)

/-- NOP (R48): bits [51:0] zero. -/
def parseNop (w : W64) : Option Guard := if bits w 0 52 = 0 then Guard.ofCode (bits w 52 4) else none

/-- The word of a NOP (R48). -/
def nopWord (g : Guard) : W64 := (0x00 : BitVec 8) ++ g.code ++ (0 : BitVec 52)


/-- The opcodes 0x00 to 0x2D of R46. -/
def opTableScalar : List (Nat × (W64 → Option Instr)) :=
  [ (0x00, fun w => (parseNop w).map .nop)
  , (0x01, fun w => (parseSr w).map .sadd)
  , (0x02, fun w => (parseSr w).map .ssub)
  , (0x03, fun w => (parseSr w).map .smul)
  , (0x04, fun w => (parseSr w).map .smulh)
  , (0x05, fun w => (parseSr w).map .sdiv)
  , (0x06, fun w => (parseSr w).map .smin)
  , (0x07, fun w => (parseSr w).map .smax)
  , (0x08, fun w => (parseSr w).map .sand)
  , (0x09, fun w => (parseSr w).map .sor)
  , (0x0A, fun w => (parseSr w).map .sxor)
  , (0x0B, fun w => (parseSr w).map .sshl)
  , (0x0C, fun w => (parseSr w).map .sshr)
  , (0x0D, fun w => (parseSr w).map .sbfx)
  , (0x0E, fun w => (parseSr w).map .sbfi)
  , (0x0F, fun w => (parseSr w).map .sclz)
  , (0x10, fun w => (parseSr w).map .spopc)
  , (0x11, fun w => (parseSr w).map .sset)
  , (0x12, fun w => (parseSr w).map .ssel)
  , (0x13, fun w => (parseSr w).map .smov)
  , (0x14, fun w => (parseIm w).map .smovi)
  , (0x15, fun w => (parseIm w).map .smovhi)
  , (0x16, fun w => (parseIm w).map .saddi)
  , (0x18, fun w => (parseSr w).map .vrdlane)
  , (0x19, fun w => (parseSr w).map .vwrlane)
  , (0x1A, fun w => (parseSr w).map .ballot)
  , (0x1B, fun w => (parseSr w).map .pfrom)
  , (0x1C, fun w => (parseSr w).map .plog)
  , (0x1D, fun w => (parseYf w).map .srd)
  , (0x1E, fun w => (parseYf w).map .swr)
  , (0x20, fun w => (parseCt w).map .bra)
  , (0x21, fun w => (parseCt w).map .brx)
  , (0x22, fun w => (parseCt w).map .call)
  , (0x23, fun w => (parseCt w).map .callx)
  , (0x24, fun w => (parseCt w).map .ret)
  , (0x25, fun w => (parseSr w).map .mkjoin)
  , (0x26, fun w => (parseSr w).map .join)
  , (0x27, fun w => (parseCt w).map .exit)
  , (0x28, fun w => (parseSr w).map .yield)
  , (0x2A, fun w => (parseYf w).map .mbrd)
  , (0x2B, fun w => (parseYf w).map .mbwr)
  , (0x2C, fun w => (parseIm w).map .sleep)
  , (0x2D, fun w => (parseIm w).map .evsig) ]

/-- The opcodes 0x40 to 0x7A of R46. -/
def opTableVector : List (Nat × (W64 → Option Instr)) :=
  [ (0x40, fun w => (parseVr w).map .vadd)
  , (0x41, fun w => (parseVr w).map .vsub)
  , (0x42, fun w => (parseVr w).map .vmul)
  , (0x43, fun w => (parseVr w).map .vmulh)
  , (0x44, fun w => (parseVr w).map .vmad)
  , (0x45, fun w => (parseVr w).map .vmin)
  , (0x46, fun w => (parseVr w).map .vmax)
  , (0x47, fun w => (parseVr w).map .vabsd)
  , (0x48, fun w => (parseVr w).map .vand)
  , (0x49, fun w => (parseVr w).map .vor)
  , (0x4A, fun w => (parseVr w).map .vxor)
  , (0x4B, fun w => (parseVr w).map .vshl)
  , (0x4C, fun w => (parseVr w).map .vshr)
  , (0x4D, fun w => (parseVr w).map .vbfx)
  , (0x4E, fun w => (parseVr w).map .vbfi)
  , (0x4F, fun w => (parseVr w).map .vclz)
  , (0x50, fun w => (parseVr w).map .vpopc)
  , (0x51, fun w => (parseVr w).map .vaddc)
  , (0x52, fun w => (parseVr w).map .vdot4)
  , (0x53, fun w => (parseVr w).map .vperm)
  , (0x54, fun w => (parseVr w).map .vshfl)
  , (0x55, fun w => (parseVr w).map .vmbcnt)
  , (0x56, fun w => (parseVr w).map .vcmp)
  , (0x57, fun w => (parseVr w).map .vsel)
  , (0x58, fun w => (parseVr w).map .vmov)
  , (0x59, fun w => (parseIm w).map .vmovi)
  , (0x5A, fun w => (parseIm w).map .vaddi)
  , (0x60, fun w => (parseVr w).map .vfadd)
  , (0x61, fun w => (parseVr w).map .vfsub)
  , (0x62, fun w => (parseVr w).map .vfmul)
  , (0x63, fun w => (parseVr w).map .vfma)
  , (0x64, fun w => (parseVr w).map .vfmin)
  , (0x65, fun w => (parseVr w).map .vfmax)
  , (0x66, fun w => (parseVr w).map .vfsgn)
  , (0x67, fun w => (parseVr w).map .vfcmp)
  , (0x68, fun w => (parseVr w).map .vfclass)
  , (0x69, fun w => (parseVr w).map .vfrnd)
  , (0x6A, fun w => (parseVr w).map .vfldx)
  , (0x6B, fun w => (parseVr w).map .vfdiv)
  , (0x6C, fun w => (parseVr w).map .vfsqrt)
  , (0x6D, fun w => (parseVr w).map .vfrcp)
  , (0x6E, fun w => (parseVr w).map .vfrsq)
  , (0x6F, fun w => (parseVr w).map .vfexp2)
  , (0x70, fun w => (parseVr w).map .vflog2)
  , (0x71, fun w => (parseVr w).map .vftanh)
  , (0x72, fun w => (parseVr w).map .vfsigm)
  , (0x78, fun w => (parseVr w).map .vcvt)
  , (0x79, fun w => (parseVr w).map .vcvt8)
  , (0x7A, fun w => (parseVr w).map .vcvtmx) ]

/-- The opcodes 0xA0 to 0xDD of R46. -/
def opTableMemory : List (Nat × (W64 → Option Instr)) :=
  [ (0xA0, fun w => (parseMe w).map .ld)
  , (0xA1, fun w => (parseMe w).map .st)
  , (0xA2, fun w => (parseMe w).map .sld)
  , (0xA3, fun w => (parseMe w).map .sst)
  , (0xA4, fun w => (parseMe w).map .lds)
  , (0xA5, fun w => (parseMe w).map .sts)
  , (0xA6, fun w => (parseMe w).map .ldx)
  , (0xA7, fun w => (parseMe w).map .stx)
  , (0xA8, fun w => (parseMe w).map .stcmp)
  , (0xA9, fun w => (parseMe w).map .ldexp)
  , (0xAA, fun w => (parseMe w).map .pref)
  , (0xAB, fun w => (parseMe w).map .linv)
  , (0xAC, fun w => (parseMe w).map .fence)
  , (0xB0, fun w => (parseMa w).map .atom)
  , (0xB1, fun w => (parseMa w).map .acas)
  , (0xB2, fun w => (parseMa w).map .atoms)
  , (0xB3, fun w => (parseMa w).map .acass)
  , (0xB4, fun w => (parseMa w).map .xopen)
  , (0xB5, fun w => (parseMa w).map .xclose)
  , (0xD0, fun w => (parseEn w).map .fld)
  , (0xD1, fun w => (parseEn w).map .fst)
  , (0xD2, fun w => (parseEn w).map .mma)
  , (0xD3, fun w => (parseEn w).map .mstat)
  , (0xD4, fun w => (parseEn w).map .cpyin)
  , (0xD5, fun w => (parseEn w).map .cpyst)
  , (0xD6, fun w => (parseEn w).map .cpyx)
  , (0xD7, fun w => (parseEn w).map .cpyg)
  , (0xD8, fun w => (parseEn w).map .cpyr)
  , (0xD9, fun w => (parseEn w).map .bndset)
  , (0xDA, fun w => (parseEn w).map .bndget)
  , (0xDB, fun w => (parseEn w).map .bndsel)
  , (0xDC, fun w => (parseEn w).map .twait)
  , (0xDD, fun w => (parseEn w).map .tpoll) ]

/-- The opcodes 0xE8 to 0xFE of R46. -/
def opTableControl : List (Nat × (W64 → Option Instr)) :=
  [ (0xE8, fun w => (parseYf w).map .bar)
  , (0xE9, fun w => (parseYf w).map .bararv)
  , (0xEA, fun w => (parseYf w).map .barwt)
  , (0xEB, fun w => (parseYf w).map .barq)
  , (0xEC, fun w => (parseEn w).map .fork)
  , (0xED, fun w => (parseYf w).map .fjoin)
  , (0xEE, fun w => (parseSr w).map .dqpush)
  , (0xEF, fun w => (parseSr w).map .dqpop)
  , (0xF0, fun w => (parseSr w).map .dqsteal)
  , (0xF1, fun w => (parseEn w).map .msend)
  , (0xF2, fun w => (parseEn w).map .mrecv)
  , (0xF3, fun w => (parseEn w).map .mprobe)
  , (0xF4, fun w => (parseCt w).map .go)
  , (0xF5, fun w => (parseCt w).map .gox)
  , (0xF6, fun w => (parseEn w).map .segrep)
  , (0xF7, fun w => (parseYf w).map .boost)
  , (0xF8, fun w => (parseYf w).map .boostq)
  , (0xF9, fun w => (parseYf w).map .trap)
  , (0xFA, fun w => (parseCt w).map .rtr)
  , (0xFB, fun w => (parseYf w).map .rqrd)
  , (0xFC, fun w => (parseYf w).map .rqwr)
  , (0xFD, fun w => (parseYf w).map .sysrd)
  , (0xFE, fun w => (parseYf w).map .syswr) ]

/-- The opcode map (R46): each assigned opcode with the reading of its word. -/
def opTable : List (Nat × (W64 → Option Instr)) :=
  opTableScalar ++ opTableVector ++ opTableMemory ++ opTableControl

/-- The opcode of a machine instruction (R46); an event has none. -/
def Instr.op : Instr → Option (BitVec 8)
  | .nop _ => some 0x00
  | .sadd _ => some 0x01
  | .ssub _ => some 0x02
  | .smul _ => some 0x03
  | .smulh _ => some 0x04
  | .sdiv _ => some 0x05
  | .smin _ => some 0x06
  | .smax _ => some 0x07
  | .sand _ => some 0x08
  | .sor _ => some 0x09
  | .sxor _ => some 0x0A
  | .sshl _ => some 0x0B
  | .sshr _ => some 0x0C
  | .sbfx _ => some 0x0D
  | .sbfi _ => some 0x0E
  | .sclz _ => some 0x0F
  | .spopc _ => some 0x10
  | .sset _ => some 0x11
  | .ssel _ => some 0x12
  | .smov _ => some 0x13
  | .smovi _ => some 0x14
  | .smovhi _ => some 0x15
  | .saddi _ => some 0x16
  | .vrdlane _ => some 0x18
  | .vwrlane _ => some 0x19
  | .ballot _ => some 0x1A
  | .pfrom _ => some 0x1B
  | .plog _ => some 0x1C
  | .srd _ => some 0x1D
  | .swr _ => some 0x1E
  | .bra _ => some 0x20
  | .brx _ => some 0x21
  | .call _ => some 0x22
  | .callx _ => some 0x23
  | .ret _ => some 0x24
  | .mkjoin _ => some 0x25
  | .join _ => some 0x26
  | .exit _ => some 0x27
  | .yield _ => some 0x28
  | .mbrd _ => some 0x2A
  | .mbwr _ => some 0x2B
  | .sleep _ => some 0x2C
  | .evsig _ => some 0x2D
  | .vadd _ => some 0x40
  | .vsub _ => some 0x41
  | .vmul _ => some 0x42
  | .vmulh _ => some 0x43
  | .vmad _ => some 0x44
  | .vmin _ => some 0x45
  | .vmax _ => some 0x46
  | .vabsd _ => some 0x47
  | .vand _ => some 0x48
  | .vor _ => some 0x49
  | .vxor _ => some 0x4A
  | .vshl _ => some 0x4B
  | .vshr _ => some 0x4C
  | .vbfx _ => some 0x4D
  | .vbfi _ => some 0x4E
  | .vclz _ => some 0x4F
  | .vpopc _ => some 0x50
  | .vaddc _ => some 0x51
  | .vdot4 _ => some 0x52
  | .vperm _ => some 0x53
  | .vshfl _ => some 0x54
  | .vmbcnt _ => some 0x55
  | .vcmp _ => some 0x56
  | .vsel _ => some 0x57
  | .vmov _ => some 0x58
  | .vmovi _ => some 0x59
  | .vaddi _ => some 0x5A
  | .vfadd _ => some 0x60
  | .vfsub _ => some 0x61
  | .vfmul _ => some 0x62
  | .vfma _ => some 0x63
  | .vfmin _ => some 0x64
  | .vfmax _ => some 0x65
  | .vfsgn _ => some 0x66
  | .vfcmp _ => some 0x67
  | .vfclass _ => some 0x68
  | .vfrnd _ => some 0x69
  | .vfldx _ => some 0x6A
  | .vfdiv _ => some 0x6B
  | .vfsqrt _ => some 0x6C
  | .vfrcp _ => some 0x6D
  | .vfrsq _ => some 0x6E
  | .vfexp2 _ => some 0x6F
  | .vflog2 _ => some 0x70
  | .vftanh _ => some 0x71
  | .vfsigm _ => some 0x72
  | .vcvt _ => some 0x78
  | .vcvt8 _ => some 0x79
  | .vcvtmx _ => some 0x7A
  | .ld _ => some 0xA0
  | .st _ => some 0xA1
  | .sld _ => some 0xA2
  | .sst _ => some 0xA3
  | .lds _ => some 0xA4
  | .sts _ => some 0xA5
  | .ldx _ => some 0xA6
  | .stx _ => some 0xA7
  | .stcmp _ => some 0xA8
  | .ldexp _ => some 0xA9
  | .pref _ => some 0xAA
  | .linv _ => some 0xAB
  | .fence _ => some 0xAC
  | .atom _ => some 0xB0
  | .acas _ => some 0xB1
  | .atoms _ => some 0xB2
  | .acass _ => some 0xB3
  | .xopen _ => some 0xB4
  | .xclose _ => some 0xB5
  | .fld _ => some 0xD0
  | .fst _ => some 0xD1
  | .mma _ => some 0xD2
  | .mstat _ => some 0xD3
  | .cpyin _ => some 0xD4
  | .cpyst _ => some 0xD5
  | .cpyx _ => some 0xD6
  | .cpyg _ => some 0xD7
  | .cpyr _ => some 0xD8
  | .bndset _ => some 0xD9
  | .bndget _ => some 0xDA
  | .bndsel _ => some 0xDB
  | .twait _ => some 0xDC
  | .tpoll _ => some 0xDD
  | .bar _ => some 0xE8
  | .bararv _ => some 0xE9
  | .barwt _ => some 0xEA
  | .barq _ => some 0xEB
  | .fork _ => some 0xEC
  | .fjoin _ => some 0xED
  | .dqpush _ => some 0xEE
  | .dqpop _ => some 0xEF
  | .dqsteal _ => some 0xF0
  | .msend _ => some 0xF1
  | .mrecv _ => some 0xF2
  | .mprobe _ => some 0xF3
  | .go _ => some 0xF4
  | .gox _ => some 0xF5
  | .segrep _ => some 0xF6
  | .boost _ => some 0xF7
  | .boostq _ => some 0xF8
  | .trap _ => some 0xF9
  | .rtr _ => some 0xFA
  | .rqrd _ => some 0xFB
  | .rqwr _ => some 0xFC
  | .sysrd _ => some 0xFD
  | .syswr _ => some 0xFE
  | .evGroupForm _ => none
  | .evLoadReturn _ _ _ _ _ _ => none
  | .evStoreDrain _ => none
  | .evWritePerformed _ _ _ _ => none
  | .evServiceWarpRequest _ _ => none
  | .evQntApply _ => none
  | .evDeferredFault _ _ => none
  | .evExtentMissResolved _ _ _ => none
  | .evMmaPass _ _ _ => none
  | .evCopyPass _ => none
  | .evCpyrAck _ => none
  | .evLinkFailure _ => none
  | .evForkAccept _ _ _ => none
  | .evFjoinResume _ => none
  | .evTeamRetire _ => none
  | .evMessageArrival _ => none
  | .evParcelEnqueue _ => none
  | .evParcelSpill _ => none
  | .evParcelAdmit _ _ => none
  | .evRingDrain _ => none
  | .evSegrepComplete _ => none
  | .evSeghot _ _ => none
  | .evWtimerExpire _ => none
  | .evSleepTimeout _ => none
  | .evSlewResume _ => none
  | .evHang _ => none
  | .evTeamPlace _ => none
  | .evTeamProtection _ => none
  | .evSliceEnd _ => none
  | .evSoftDrainDeadline _ => none
  | .evHaltComplete _ => none
  | .evHardHaltLimit _ => none
  | .evContextRestore _ => none
  | .evFeModeWrite _ _ _ _ => none
  | .evCtxCreate _ _ _ => none
  | .evCtxDestroy _ _ _ => none
  | .evGraphLoad _ _ _ => none
  | .evGraphUnload _ _ _ => none
  | .evGraphDone _ _ => none
  | .evTrigger _ _ _ => none
  | .evRunStart _ => none
  | .evNodeLaunch _ _ => none
  | .evRingHeadWrite _ _ _ => none
  | .evRingInterruptTimer _ => none
  | .evMbInWrite _ _ _ _ => none
  | .evMbOutRead _ _ _ => none
  | .evMbStatClear _ _ _ => none
  | .evRegisterWrite _ _ _ _ _ => none
  | .evUnsupportedRequest _ _ _ _ => none
  | .evWatchCtlWrite _ _ _ _ => none
  | .evErrStatusClear _ => none
  | .evGetVersion => none
  | .evGetCapabilities => none
  | .evNegotiateAlgorithms _ => none
  | .evGetDigests => none
  | .evGetCertificate _ _ _ => none
  | .evChallenge _ _ => none
  | .evGetMeasurements _ => none
  | .evKeyExchange _ => none
  | .evFinish _ => none
  | .evHeartbeat => none
  | .evKeyUpdate => none
  | .evEndSession => none
  | .evIdeKm _ _ => none
  | .evLockInterface _ => none
  | .evStartInterface _ => none
  | .evStopInterface _ => none
  | .evIdeIntegrityFailure _ => none
  | .evVfEnableClear => none
  | .evPortCtlWrite _ _ => none
  | .evPortLinkChange _ _ => none
  | .evRoceSend _ _ _ _ => none
  | .evRdmaWrite _ _ _ _ _ => none
  | .evRdmaRead _ _ _ _ _ => none
  | .evPeerWrite _ _ _ _ => none
  | .evStatus => none
  | .evLog _ => none
  | .evFwBegin _ => none
  | .evFwChunk _ => none
  | .evFwCommit => none
  | .evFwCommitDone => none
  | .evReset _ => none
  | .evQpSet => none
  | .evQpClear _ => none
  | .evKeySet => none
  | .evKeyClear _ => none
  | .evPowerOn _ => none
  | .evPowerLoss => none
  | .evThermalStep _ _ => none
  | .evThermalShutdown _ _ => none
  | .evThermalRelease _ _ => none
  | .evPowerIntervalBoundary _ => none
  | .evVoltageSettled _ => none
  | .evPhaseFail _ _ => none
  | .evBumpSuspect _ _ _ => none
  | .evCanary _ => none
  | .evClusterPowerUp _ _ => none
  | .evInrushRecheck _ _ => none
  | .evInrushSlow _ => none
  | .evRampEnd _ => none
  | .evAnneal _ _ _ _ => none
  | .evBilletCall _ => none
  | .evBilletTestDone _ _ _ => none
  | .evWearAccrual _ => none
  | .evJournalWrite => none
  | .evCheckpoint => none
  | .evBudgetRefill _ => none
  | .evHmCtlGen _ => none
  | .evHallmarkDone => none
  | .evScrubRead _ _ _ => none
  | .evScrubWriteback _ => none
  | .evScrubDeadline _ => none
  | .evPartitionDirectWrite _ _ _ => none
  | .evResizeRequest _ _ => none
  | .evResizeCancel _ _ => none
  | .evResizeQuiescing => none
  | .evResizeMigrating => none
  | .evResizeDeadline => none
  | .evResizeRemapping => none
  | .evResizeRehashing => none
  | .evResizeShootdown => none
  | .evResizeDone => none
  | .evInvQueue _ => none
  | .evInvCommandStart => none
  | .evInvDone => none
  | .evHintMismatch _ _ _ _ _ _ => none
  | .evQuotaRebalance _ _ _ => none
  | .evModuleReset _ => none
  | .evScrubTakeover _ _ => none

/-- The code words of an instruction (R37, R40, R48): one word for a machine instruction, none for an event. -/
def encode : Instr → List W64
  | .nop g => [nopWord g]
  | .sadd f => [f.word 0x01]
  | .ssub f => [f.word 0x02]
  | .smul f => [f.word 0x03]
  | .smulh f => [f.word 0x04]
  | .sdiv f => [f.word 0x05]
  | .smin f => [f.word 0x06]
  | .smax f => [f.word 0x07]
  | .sand f => [f.word 0x08]
  | .sor f => [f.word 0x09]
  | .sxor f => [f.word 0x0A]
  | .sshl f => [f.word 0x0B]
  | .sshr f => [f.word 0x0C]
  | .sbfx f => [f.word 0x0D]
  | .sbfi f => [f.word 0x0E]
  | .sclz f => [f.word 0x0F]
  | .spopc f => [f.word 0x10]
  | .sset f => [f.word 0x11]
  | .ssel f => [f.word 0x12]
  | .smov f => [f.word 0x13]
  | .smovi f => [f.word 0x14]
  | .smovhi f => [f.word 0x15]
  | .saddi f => [f.word 0x16]
  | .vrdlane f => [f.word 0x18]
  | .vwrlane f => [f.word 0x19]
  | .ballot f => [f.word 0x1A]
  | .pfrom f => [f.word 0x1B]
  | .plog f => [f.word 0x1C]
  | .srd f => [f.word 0x1D]
  | .swr f => [f.word 0x1E]
  | .bra f => [f.word 0x20]
  | .brx f => [f.word 0x21]
  | .call f => [f.word 0x22]
  | .callx f => [f.word 0x23]
  | .ret f => [f.word 0x24]
  | .mkjoin f => [f.word 0x25]
  | .join f => [f.word 0x26]
  | .exit f => [f.word 0x27]
  | .yield f => [f.word 0x28]
  | .mbrd f => [f.word 0x2A]
  | .mbwr f => [f.word 0x2B]
  | .sleep f => [f.word 0x2C]
  | .evsig f => [f.word 0x2D]
  | .vadd f => [f.word 0x40]
  | .vsub f => [f.word 0x41]
  | .vmul f => [f.word 0x42]
  | .vmulh f => [f.word 0x43]
  | .vmad f => [f.word 0x44]
  | .vmin f => [f.word 0x45]
  | .vmax f => [f.word 0x46]
  | .vabsd f => [f.word 0x47]
  | .vand f => [f.word 0x48]
  | .vor f => [f.word 0x49]
  | .vxor f => [f.word 0x4A]
  | .vshl f => [f.word 0x4B]
  | .vshr f => [f.word 0x4C]
  | .vbfx f => [f.word 0x4D]
  | .vbfi f => [f.word 0x4E]
  | .vclz f => [f.word 0x4F]
  | .vpopc f => [f.word 0x50]
  | .vaddc f => [f.word 0x51]
  | .vdot4 f => [f.word 0x52]
  | .vperm f => [f.word 0x53]
  | .vshfl f => [f.word 0x54]
  | .vmbcnt f => [f.word 0x55]
  | .vcmp f => [f.word 0x56]
  | .vsel f => [f.word 0x57]
  | .vmov f => [f.word 0x58]
  | .vmovi f => [f.word 0x59]
  | .vaddi f => [f.word 0x5A]
  | .vfadd f => [f.word 0x60]
  | .vfsub f => [f.word 0x61]
  | .vfmul f => [f.word 0x62]
  | .vfma f => [f.word 0x63]
  | .vfmin f => [f.word 0x64]
  | .vfmax f => [f.word 0x65]
  | .vfsgn f => [f.word 0x66]
  | .vfcmp f => [f.word 0x67]
  | .vfclass f => [f.word 0x68]
  | .vfrnd f => [f.word 0x69]
  | .vfldx f => [f.word 0x6A]
  | .vfdiv f => [f.word 0x6B]
  | .vfsqrt f => [f.word 0x6C]
  | .vfrcp f => [f.word 0x6D]
  | .vfrsq f => [f.word 0x6E]
  | .vfexp2 f => [f.word 0x6F]
  | .vflog2 f => [f.word 0x70]
  | .vftanh f => [f.word 0x71]
  | .vfsigm f => [f.word 0x72]
  | .vcvt f => [f.word 0x78]
  | .vcvt8 f => [f.word 0x79]
  | .vcvtmx f => [f.word 0x7A]
  | .ld f => [f.word 0xA0]
  | .st f => [f.word 0xA1]
  | .sld f => [f.word 0xA2]
  | .sst f => [f.word 0xA3]
  | .lds f => [f.word 0xA4]
  | .sts f => [f.word 0xA5]
  | .ldx f => [f.word 0xA6]
  | .stx f => [f.word 0xA7]
  | .stcmp f => [f.word 0xA8]
  | .ldexp f => [f.word 0xA9]
  | .pref f => [f.word 0xAA]
  | .linv f => [f.word 0xAB]
  | .fence f => [f.word 0xAC]
  | .atom f => [f.word 0xB0]
  | .acas f => [f.word 0xB1]
  | .atoms f => [f.word 0xB2]
  | .acass f => [f.word 0xB3]
  | .xopen f => [f.word 0xB4]
  | .xclose f => [f.word 0xB5]
  | .fld f => [f.word 0xD0]
  | .fst f => [f.word 0xD1]
  | .mma f => [f.word 0xD2]
  | .mstat f => [f.word 0xD3]
  | .cpyin f => [f.word 0xD4]
  | .cpyst f => [f.word 0xD5]
  | .cpyx f => [f.word 0xD6]
  | .cpyg f => [f.word 0xD7]
  | .cpyr f => [f.word 0xD8]
  | .bndset f => [f.word 0xD9]
  | .bndget f => [f.word 0xDA]
  | .bndsel f => [f.word 0xDB]
  | .twait f => [f.word 0xDC]
  | .tpoll f => [f.word 0xDD]
  | .bar f => [f.word 0xE8]
  | .bararv f => [f.word 0xE9]
  | .barwt f => [f.word 0xEA]
  | .barq f => [f.word 0xEB]
  | .fork f => [f.word 0xEC]
  | .fjoin f => [f.word 0xED]
  | .dqpush f => [f.word 0xEE]
  | .dqpop f => [f.word 0xEF]
  | .dqsteal f => [f.word 0xF0]
  | .msend f => [f.word 0xF1]
  | .mrecv f => [f.word 0xF2]
  | .mprobe f => [f.word 0xF3]
  | .go f => [f.word 0xF4]
  | .gox f => [f.word 0xF5]
  | .segrep f => [f.word 0xF6]
  | .boost f => [f.word 0xF7]
  | .boostq f => [f.word 0xF8]
  | .trap f => [f.word 0xF9]
  | .rtr f => [f.word 0xFA]
  | .rqrd f => [f.word 0xFB]
  | .rqwr f => [f.word 0xFC]
  | .sysrd f => [f.word 0xFD]
  | .syswr f => [f.word 0xFE]
  | .evGroupForm _ => []
  | .evLoadReturn _ _ _ _ _ _ => []
  | .evStoreDrain _ => []
  | .evWritePerformed _ _ _ _ => []
  | .evServiceWarpRequest _ _ => []
  | .evQntApply _ => []
  | .evDeferredFault _ _ => []
  | .evExtentMissResolved _ _ _ => []
  | .evMmaPass _ _ _ => []
  | .evCopyPass _ => []
  | .evCpyrAck _ => []
  | .evLinkFailure _ => []
  | .evForkAccept _ _ _ => []
  | .evFjoinResume _ => []
  | .evTeamRetire _ => []
  | .evMessageArrival _ => []
  | .evParcelEnqueue _ => []
  | .evParcelSpill _ => []
  | .evParcelAdmit _ _ => []
  | .evRingDrain _ => []
  | .evSegrepComplete _ => []
  | .evSeghot _ _ => []
  | .evWtimerExpire _ => []
  | .evSleepTimeout _ => []
  | .evSlewResume _ => []
  | .evHang _ => []
  | .evTeamPlace _ => []
  | .evTeamProtection _ => []
  | .evSliceEnd _ => []
  | .evSoftDrainDeadline _ => []
  | .evHaltComplete _ => []
  | .evHardHaltLimit _ => []
  | .evContextRestore _ => []
  | .evFeModeWrite _ _ _ _ => []
  | .evCtxCreate _ _ _ => []
  | .evCtxDestroy _ _ _ => []
  | .evGraphLoad _ _ _ => []
  | .evGraphUnload _ _ _ => []
  | .evGraphDone _ _ => []
  | .evTrigger _ _ _ => []
  | .evRunStart _ => []
  | .evNodeLaunch _ _ => []
  | .evRingHeadWrite _ _ _ => []
  | .evRingInterruptTimer _ => []
  | .evMbInWrite _ _ _ _ => []
  | .evMbOutRead _ _ _ => []
  | .evMbStatClear _ _ _ => []
  | .evRegisterWrite _ _ _ _ _ => []
  | .evUnsupportedRequest _ _ _ _ => []
  | .evWatchCtlWrite _ _ _ _ => []
  | .evErrStatusClear _ => []
  | .evGetVersion => []
  | .evGetCapabilities => []
  | .evNegotiateAlgorithms _ => []
  | .evGetDigests => []
  | .evGetCertificate _ _ _ => []
  | .evChallenge _ _ => []
  | .evGetMeasurements _ => []
  | .evKeyExchange _ => []
  | .evFinish _ => []
  | .evHeartbeat => []
  | .evKeyUpdate => []
  | .evEndSession => []
  | .evIdeKm _ _ => []
  | .evLockInterface _ => []
  | .evStartInterface _ => []
  | .evStopInterface _ => []
  | .evIdeIntegrityFailure _ => []
  | .evVfEnableClear => []
  | .evPortCtlWrite _ _ => []
  | .evPortLinkChange _ _ => []
  | .evRoceSend _ _ _ _ => []
  | .evRdmaWrite _ _ _ _ _ => []
  | .evRdmaRead _ _ _ _ _ => []
  | .evPeerWrite _ _ _ _ => []
  | .evStatus => []
  | .evLog _ => []
  | .evFwBegin _ => []
  | .evFwChunk _ => []
  | .evFwCommit => []
  | .evFwCommitDone => []
  | .evReset _ => []
  | .evQpSet => []
  | .evQpClear _ => []
  | .evKeySet => []
  | .evKeyClear _ => []
  | .evPowerOn _ => []
  | .evPowerLoss => []
  | .evThermalStep _ _ => []
  | .evThermalShutdown _ _ => []
  | .evThermalRelease _ _ => []
  | .evPowerIntervalBoundary _ => []
  | .evVoltageSettled _ => []
  | .evPhaseFail _ _ => []
  | .evBumpSuspect _ _ _ => []
  | .evCanary _ => []
  | .evClusterPowerUp _ _ => []
  | .evInrushRecheck _ _ => []
  | .evInrushSlow _ => []
  | .evRampEnd _ => []
  | .evAnneal _ _ _ _ => []
  | .evBilletCall _ => []
  | .evBilletTestDone _ _ _ => []
  | .evWearAccrual _ => []
  | .evJournalWrite => []
  | .evCheckpoint => []
  | .evBudgetRefill _ => []
  | .evHmCtlGen _ => []
  | .evHallmarkDone => []
  | .evScrubRead _ _ _ => []
  | .evScrubWriteback _ => []
  | .evScrubDeadline _ => []
  | .evPartitionDirectWrite _ _ _ => []
  | .evResizeRequest _ _ => []
  | .evResizeCancel _ _ => []
  | .evResizeQuiescing => []
  | .evResizeMigrating => []
  | .evResizeDeadline => []
  | .evResizeRemapping => []
  | .evResizeRehashing => []
  | .evResizeShootdown => []
  | .evResizeDone => []
  | .evInvQueue _ => []
  | .evInvCommandStart => []
  | .evInvDone => []
  | .evHintMismatch _ _ _ _ _ _ => []
  | .evQuotaRebalance _ _ _ => []
  | .evModuleReset _ => []
  | .evScrubTakeover _ _ => []

/-- A decode fault (R49): CLAUSE, OPCODE or ENCODING. -/
inductive DecodeFault where
  /-- Trap code 0x01. -/
  | clause
  /-- Trap code 0x02. -/
  | opcode
  /-- Trap code 0x03. -/
  | encoding
  deriving DecidableEq, Repr

/-- The trap code of a decode fault (R223). -/
def DecodeFault.code : DecodeFault → Nat
  | .clause => 1
  | .opcode => 2
  | .encoding => 3

/-- The opcode of a word (R37). -/
def opcodeOf (w : W64) : Nat := (bits w 56 8).toNat

/-- What a word says as an instruction, apart from its clause and its launch: R49's OPCODE row, then its ENCODING rows. -/
def decodeWord (w : W64) : Except DecodeFault Instr :=
  match (opTable.lookup (opcodeOf w)) with
  | none => .error .opcode
  | some parse =>
    match parse w with
    | none => .error .encoding
    | some i => if i.wf then .ok i else .error .encoding

/-- The clause classes of R31. -/
inductive ClauseClass where
  | vec | mem | eng | ctl
  deriving DecidableEq, Repr

/-- A clause header's fields (R31). `waits` holds the w0 to w5 wait values in order. -/
structure Header where
  count : BitVec 4
  cls   : ClauseClass
  yield : Bool
  keep  : Bool
  waits : List (BitVec 3)
  deriving DecidableEq, Repr

/-- CLASS codes (R31). -/
def ClauseClass.ofCode (c : BitVec 2) : ClauseClass :=
  match c.toNat with
  | 0 => .vec | 1 => .mem | 2 => .eng | _ => .ctl

/-- The header a word holds: MARK 0xC7 or CLAUSE, then reserved bits zero or ENCODING (R31, R49). -/
def decodeHeader (w : W64) : Except DecodeFault Header :=
  if bits w 56 8 ≠ 0xC7 then .error .clause
  else if bits w 0 30 ≠ 0 then .error .encoding
  else .ok { count := bits w 52 4, cls := .ofCode (bits w 50 2), yield := bit w 49, keep := bit w 48,
             waits := [bits w 30 3, bits w 33 3, bits w 36 3, bits w 39 3, bits w 42 3, bits w 45 3] }

/-- The kinds of opcode (R35). -/
inductive OpKind where
  | alu | memory | engine | control
  deriving DecidableEq, Repr

/-- The kind of an assigned opcode (R35). -/
def opKind (op : Nat) : OpKind :=
  if op ≤ 0x1E then .alu
  else if op ≤ 0x2D then .control
  else if op ≤ 0x7A then .alu
  else if op ≤ 0xB5 then .memory
  else if op ≤ 0xDD then .engine
  else .control

/-- Which kinds a clause class admits (R35). -/
def ClauseClass.admits : ClauseClass → OpKind → Bool
  | _, .alu => true
  | .ctl, _ => true
  | .mem, .memory => true
  | .eng, .engine => true
  | _, _ => false

/-- The control transfers of R36: BRA, BRX, CALL, CALLX, RET, EXIT, GO, GOX, RTR. -/
def isTransferOp (op : Nat) : Bool := [0x20, 0x21, 0x22, 0x23, 0x24, 0x27, 0xF4, 0xF5, 0xFA].contains op

/-- The checks of one instruction word of a clause, in the order of R49's rows: the opcode, its class, its place, its
encoding, then what its launch allows. -/
def checkWord (cls : ClauseClass) (last : Bool) (allows : Instr → Bool) (w : W64) : Except DecodeFault Instr :=
  let op := opcodeOf w
  if (opTable.lookup op).isNone then .error .opcode
  else if !(w == 0) && !cls.admits (opKind op) then .error .clause
  else if isTransferOp op && !last then .error .clause
  else
    match decodeWord w with
    | .error e => .error e
    | .ok i => if allows i then .ok i else .error .encoding

/-- What the host's table asks: the instruction whose bits are `w`, least significant bit first; every instruction of this
hardware is one 64-bit word, so bits above `nbits` are zero. -/
def decodeTableWord (nbits w : Nat) : Option Instr :=
  if w < 2 ^ nbits ∧ w < 2 ^ 64 then (decodeWord (BitVec.ofNat 64 w)).toOption else none

end Sys2Proof
end

