-- ==== Sys2Proof/Machine/State.lean ====
section
/-!
DEFINITION. State: everything the spec gives the machine, as plain data. Thread, warp, team, grid and group keys are the
model's own numbers; a thread keeps its key, and so its registers, wherever it stands.
-/
namespace Sys2Proof.Machine

/-- Why a step can stop. -/
inductive Fault where
  /-- Raised by an instruction of the opcode map when no issue group issues it; `step` never does that. Safe. -/
  | noIssuingGroup
  deriving DecidableEq, Repr

/-- Why an instruction has no outcome. -/
inductive Refusal where
  /-- Raised by an arm of `exec` whose meaning is not written yet. Safe. -/
  | notModelled (mnemonic : String)
  deriving DecidableEq, Repr

/-- Why a group waits at its instruction (R32, R75, R77, R79 to R81, R96, R226, R303). -/
inductive Stall where
  | none
  | counterWait | counterFull | register | token | engineReg | limit | order
  | join | barrier | mailbox | receiveList | storeQueue | reservation | rangeLock | boost | depart
  deriving DecidableEq, Repr

/-- Where a thread stands (R253, R222, R225, R147, R109, R216). -/
inductive TStat where
  | ready
  | grouped (gid : Nat)
  | yielding (gid : Nat)
  | extentMiss
  | asleep
  | held
  | exiting
  | exited
  | parcel
  | evicted
  | rtr                      -- at an RTR, waiting for the other lanes of a KIND 5 entry (R229)
  deriving DecidableEq, Repr

/-- A thread that stands at its lane of its warp or slot: it has not exited, and is not on its way. -/
def TStat.here (t : TStat) : Bool := t != .exited && t != .parcel && t != .evicted

/-- A message (R210). -/
structure Msg where
  srcTh   : Nat
  srcTeam : W32
  srcCore : Nat
  srcLane : Nat
  tag     : W16
  words   : List W32
  deriving DecidableEq, Repr

/-- What a fault record names beside its trap (R50, R214): for a decode fault the clause header's address, the word index and the address
of the transfer that led there; for MSG_OVERFLOW the dropped message, with its sender. -/
structure FaultRec where
  head : W64
  word : Nat
  src  : Option W64
  msg  : Option Msg
  deriving DecidableEq, Repr

/-- A trap waiting to be delivered: its code, what s62 is to hold, the resume PC, the lane's part of a replay entry (R225). -/
structure TrapReq where
  th    : Nat
  code  : Nat
  info  : W64
  rpc   : W64
  entry : Option Nat
  rec_  : Option FaultRec := none
  deriving DecidableEq, Repr

/-- What an evicted thread waits for (R287). -/
inductive EWait where
  | none
  | barrier (sel : Nat) (phase : W32)
  | sleep (cycles : W32)
  | token
  deriving DecidableEq, Repr

/-- One thread (R7, R252). -/
structure Thread where
  wk       : Nat          -- its warp, or its warp slot on a segment core
  lane     : Nat
  pc       : W64
  stat     : TStat
  since    : Nat          -- team context cycles at its last entry to the bucket table (R253)
  inTable  : Bool         -- in the bucket table, or in the core's arrival list
  handler  : Bool         -- in handler state (R225)
  rpc      : W64          -- resume PC (R225)
  rdv      : Option Nat   -- rendezvous instance joined and incomplete
  rdvDone  : Bool         -- its instance completed and it has not gone on yet
  sleepEnd : Option W32   -- context cycles left to sleep; none for no limit
  sleepAt  : Nat          -- team context cycles when the sleep began
  h61      : W64          -- the thread's own s61 and s62 in a travelling grid (R293)
  h62      : W64
  seg      : Nat          -- %seg
  departs  : Nat          -- departure count (R217)
  wait     : EWait
  msgOvf   : Bool         -- MSG_OVERFLOW pending at the next boundary (R214)
  barAt    : SMap W32     -- phases a BAR or BARARV has arrived in, by its address (R200)
  parkPc   : W64          -- where the thread goes on once the access it parked at is performed (R147, R229)
  left     : Bool         -- it has issued EXIT: it counts as joined for every rendezvous (R109)
  came     : Option W64   -- the transfer that led it to its PC (R50)
  frec     : Option FaultRec  -- the fault record of its last trap (R50, R214)
  timer    : Bool := false    -- it owes a TIMER at its next clause boundary (R104)
  slp      : Option W32 := none  -- the limit of a SLEEP it issued in a clause that it left before the end (R222)
  yld      : Bool := false    -- it issued YIELD in such a clause (R110)
  deriving DecidableEq, Repr

/-- One entry of a wait counter, in issue order (R77): the lanes still to answer. -/
structure CEntry where
  w    : Nat
  op   : Nat
  left : W32
  deriving DecidableEq, Repr

/-- One lane record of a replay entry (R226). -/
structure RLane where
  addr : W64
  data : BitVec 128
  stat : W64
  deriving DecidableEq, Repr

/-- A replay entry (R226). -/
structure REntry where
  kind  : Nat
  trap  : Nat
  w     : Nat
  gen   : Nat
  drop  : Bool
  halt  : Bool
  rtr   : W32             -- KIND 5: the lanes that have issued RTR (R229)
  tok   : Nat
  idx   : Nat
  mask  : W32
  elems : W32             -- KIND 5: the lanes of the elements from IDX on, each with its own index (R154)
  waits : W32             -- KIND 1 of a form that acts once per warp: every lane that parked with it (R147)
  pc    : W64
  aux   : W64
  lanes : SMap RLane
  chkd  : Bool := false   -- its store has met its bound check already (R278, R279)
  hold  : Option W64 := none  -- its walk for this address met HOLD: it waits for an invalidate (R357)
  ths   : List Nat := []      -- HALT: the threads whose access it holds, which may have left their lane since (R78, R294, R365)
  words : List (Nat × W64 × BitVec 128) := []  -- HALT of an FST: each word's thread, address and data (R170, R365)
  deriving DecidableEq, Repr

/-- One warp, or one warp slot of a segment core (R7, R77, R104, R171, R192, R225, R226). -/
structure Warp where
  team    : Nat
  idx     : Nat
  entries : List CEntry
  rq      : List REntry
  held    : List TrapReq
  gen     : Nat
  seq     : W16           -- MMA and copy forms issued (R171)
  bsel    : Nat           -- selected bound register (R192)
  wtimer  : W32           -- %wtimer at `wtAt`
  wtAt    : Nat           -- team context cycles when it was written
  freed   : Bool
  deriving DecidableEq, Repr

/-- A reuse latch (R82): the operand slot 0 to 2, the operand it names, and the value read for each register of it, by register key. -/
structure Latch where
  slot : Nat
  opnd : Opnd
  vals : List (Nat × Nat)
  deriving DecidableEq, Repr

/-- A formed issue group inside a clause (R75, R254). -/
structure Group where
  core    : Nat
  team    : Nat
  threads : List Nat      -- ascending lane
  head    : W64           -- address of the clause header
  hword   : W64           -- the header
  idx     : Nat           -- the instruction word to issue, from 0
  waited  : Bool          -- the header's waits have been met, or do not apply (R229)
  stall   : Stall
  latch   : List Latch    -- reuse latches (R82)
  sleepers : List (Nat × W32)
  yielders : List Nat
  moved   : List Nat      -- threads whose transfer set their PC
  parked  : Bool          -- a YIELD park (R76)
  issued  : Bool          -- its members have joined the rendezvous it stands at (R96)
  turn    : Option Nat    -- ticks when it last took an issue slot (R254)
  deriving DecidableEq, Repr

/-- One member of a warp rendezvous with its contributions (R96). -/
structure RMember where
  th   : Nat
  lane : Nat
  act  : Bool
  a    : W64
  b    : W64
  c    : W64
  p    : Bool
  sa   : W64
  sc   : W64
  deriving DecidableEq, Repr

/-- An incomplete warp rendezvous (R96). -/
structure Rdv where
  wk      : Nat
  pc      : W64
  mask    : W32
  instr   : Instr
  members : List RMember
  deriving DecidableEq, Repr

/-- A barrier unit's barrier (R198, R200). -/
structure Bar where
  phase    : W32
  fixed    : Option W64
  arrived  : List Nat
  counts   : SMap W32
  deriving DecidableEq, Repr

/-- Where a team is (R206, R207, R255, R263). -/
inductive TeamAt where
  | unplaced | placed | suspended | halted | retiring | retired
  deriving DecidableEq, Repr

/-- A message on its way (R210, R212): its target core, grid and team index. -/
structure Flight where
  core : Nat
  grid : Nat
  team : Nat
  msg  : Msg
  deriving DecidableEq, Repr

/-- A posted receive (R211). -/
structure Recv where
  op     : Nat
  team   : Nat
  th     : Nat
  src    : W32
  tag    : W16
  anySrc : Bool
  anyTag : Bool
  buf    : W64
  tok    : RegField
  deriving DecidableEq, Repr

/-- One team (R7, R206, R255, R264). -/
structure Team where
  grid     : Nat
  idx      : Nat
  core     : Nat          -- logical core
  at_      : TeamAt
  cyc      : Nat          -- context cycles run before `cycAt`
  cycAt    : Nat          -- cluster cycles when counting last began
  run      : Bool         -- its context cycles count now
  first    : Option Nat   -- the context cycles at its first instruction, from which %cycle counts (R264)
  flag     : Bool         -- event flag (R222)
  ovf      : List Msg     -- overflow queue (R212)
  ovfBy    : Option Msg   -- the message whose loss the last MSG_OVERFLOW names (R214)
  posted   : List Recv    -- posted receives while the team is on no core (R212, R263)
  children : Nat
  fjoined  : List Nat
  passed   : Option Nat   -- since when it has been passed over (R257)
  prot     : Bool
  status   : Nat
  deriving DecidableEq, Repr

/-- A parcel (R217). -/
structure Parcel where
  th   : Nat
  pc   : W64
  mask : W32
  regs : List W32
  pred : BitVec 7
  seg  : Nat
  dst  : Nat              -- the target core
  full : Bool             -- it has found its queue full (R286)
  at_  : Nat              -- target cluster cycles when it did
  wait : EWait
  deriving DecidableEq, Repr

/-- A segment of a travelling grid's map (R283). -/
structure Seg where
  base     : W64
  len      : Nat
  handler  : W64          -- 0 where the segment names none (R22, R25)
  cores    : List Nat     -- replicas in order
  ringBase : W64
  ring     : List Parcel          -- KIND 6 entries, head first (R217, R286)
  admitted : Nat
  qfull    : Nat
  spills   : Nat
  head     : Nat := 0     -- the ring's oldest entry, as an index of its memory (R283)
  hotAt    : Nat := 0     -- ticks when its counting interval began (R289)
  deriving DecidableEq, Repr

/-- A declared operand range (R273, R321): address, length, access 0 to 3, expected reuse, STACK. -/
structure ORange where
  va    : Nat
  len   : Nat
  acc   : Nat
  reuse : Nat
  stack : Bool
  deriving DecidableEq, Repr

/-- One extent of a core's extent table (R275, R356). -/
structure Extent where
  va    : Nat
  len   : Nat
  pa    : Nat
  r     : Bool
  w     : Bool
  stale : Bool
  deriving DecidableEq, Repr

/-- What the device has counted for a declared range in the current window of 10 ms (R361): misses, and lookups from each die. -/
structure HintCnt where
  misses : Nat := 0
  dies   : List Nat := [0, 0, 0, 0]
  deriving DecidableEq, Repr

/-- One grid (R7, R25, R86, R203, R259). -/
structure Grid where
  ctx      : Nat
  num      : W32
  depth    : Nat
  code     : Nat
  entryPc  : W64
  warps    : Nat
  nv       : Nat
  ns       : Nat
  scratch  : Nat
  cg       : Nat          -- cluster-group size
  nteam    : Nat
  travel   : Bool
  det      : Bool
  cores    : Bool         -- co-resident
  param    : W64
  dataSec  : W64
  constSec : W64
  stack    : W64
  stackZ   : W64
  parent   : Option Nat   -- parent team
  token    : Option (Nat × Nat)  -- parent warp and token register
  node     : Option (Nat × Nat)  -- graph run and node
  segs     : SMap Seg
  qdepth   : Nat          -- QDEPTH, 64 for 0 (R312)
  lslots   : Nat          -- LSLOTS, 63 for 0 (R312)
  ranges   : List ORange
  bmap     : Option W64   -- completion bitmap (R324)
  quiet    : Bool         -- QUIET (R321)
  image    : Nat          -- image index
  autorep  : Bool
  teamsLeft : Nat
  status   : Nat
  done     : Bool
  exts     : List Extent := []  -- its ranges as the launch walked them, less what an invalidation has named since (R356, R359)
  deriving DecidableEq, Repr

/-- The code a launch runs (R30): its section's address and words as they stood at acceptance. -/
structure Code where
  base  : W64
  words : List W64
  deriving DecidableEq, Repr


/-- The space an access reaches (R139, R143): global memory, or a scratchpad by its owner's key. -/
inductive Space where
  | glob
  | scr (owner : Nat)
  deriving DecidableEq, Repr

/-- What a memory operation is. -/
inductive MKind where
  | load | store | atomic | cas | fence | pref | linv | xopen | xclose
  deriving DecidableEq, Repr

/-- One lane's access of an operation that is still outstanding, translated at issue: the bytes in its first 32-byte sector
stand at `pa`, the others at `pa2`. `got1` and `got2` hold the pieces a load has performed (R163). -/
structure LaneAcc where
  th    : Nat
  space : Space
  addr  : W64
  pa    : Nat
  pa2   : Nat
  data  : BitVec 128
  data2 : W64
  got1  : Option (List Byte)
  got2  : Option (List Byte)
  flt   : Nat              -- the trap its answer will raise (R427), 0 none
  deriving DecidableEq, Repr

/-- An issued memory operation that is not complete: a load, a store-queue entry, an atomic, a fence, a request (R77, R150). -/
structure MemOp where
  wk    : Nat
  core  : Nat
  kind  : MKind
  pc    : W64
  width : Nat              -- bytes
  lanes : List LaneAcc
  dst   : Option RegField  -- first destination register
  regs  : Nat              -- lane registers the destination takes
  sdst  : Bool             -- a scalar destination
  w     : Nat              -- counter, 6 none
  acq   : Option Scope
  rel   : Option Scope
  byL2  : Bool             -- served by the L2 and never from L1 (R149)
  rdist : Rdist
  aop   : Aop
  use_  : Use
  ret   : Bool
  ths   : List Nat         -- of a form that acts once per warp: the threads active at its issue (R78, R427)
  late  : Bool             -- a younger access of its warp has been performed before it (R239)
  gen   : Nat
  frag  : Option W16       -- a fragment's EMOD (R169)
  issued : Nat             -- ticks
  inst  : Nat              -- the issue it belongs to, shared by every warp of the group (R301)
  held  : Bool             -- a .qnt atomic its service warp holds (R245)
  wide  : Bool := false    -- the acquire of a popped or stolen deque entry: it waits for its context's older accesses (R209)
  above : List LaneAcc := []  -- of a store: accesses of higher lanes of the same issue, in other warps, to its bytes (R151)
  deriving DecidableEq, Repr

/-- How far a merged write has gone (R150, R234, R241): in the core's merge point, or performed at its cluster's scope. -/
inductive Stage where
  | core | clus
  deriving DecidableEq, Repr

/-- A write past the merge point that is not performed at package scope: one piece of one lane's store (R150, R163). -/
structure Pend where
  wk    : Nat
  th    : Nat
  core  : Nat
  pa    : Nat
  bytes : List Byte
  stage : Stage
  va    : W64
  data  : BitVec 128
  pc    : W64
  w     : Nat
  op    : Nat              -- the store it is a piece of
  full  : Bool             -- that store covers this piece's whole sector (R368)
  hole  : List Nat := []   -- its bytes that a higher lane of the same issue has written already (R151)
  eng   : Bool := false    -- an engine's write (R241)
  rdist : Rdist := .mid    -- where it enters its L2 line (R149, R150)
  deriving DecidableEq, Repr

/-- A sector copied into a core's L1 (R149, R237): its bytes, and the bytes each warp has stored since. -/
structure L1Sec where
  bytes  : List Byte
  stored : List (Nat × Nat)
  rrpv   : Nat := 0        -- its line's re-reference prediction (R149)
  holes  : List Nat := []  -- its bytes that a write merged by then, and not performed in memory, stood over when it was filled (R237)
  deriving DecidableEq, Repr

/-- A 128-byte line in the L2 (R149, R339, R345): the partition whose number it carries, its home slice, whether it holds written data, its
re-reference prediction, and its sharer vector: the sectors that hold a local copy. Its bytes are memory's. -/
structure L2Line where
  part   : Nat
  home   : Nat
  dirty  : Bool
  rrpv   : Nat
  copies : List Nat
  deriving DecidableEq, Repr

/-- An exact cell that is open (R161). -/
structure Cell where
  sum    : Int       -- in units of 2^−1074
  nan    : Bool
  pinf   : Bool
  ninf   : Bool
  allNeg0 : Bool
  any    : Bool
  ctx    : Nat
  deriving DecidableEq, Repr

/-- A hull registered in a cluster's range-lock table (R189). -/
structure Hull where
  space : Space
  lo    : Nat
  hi    : Nat
  deriving DecidableEq, Repr

/-- One entry of a cluster's range-lock table (R189): the operation, its source and destination hulls. -/
structure Lock where
  op   : Nat
  ctx  : Nat
  src  : Hull
  dst  : Option Hull
  deriving DecidableEq, Repr

/-- A tensor bound register (R191). -/
structure Bound where
  low    : W32 := 0xFF800000
  high   : W32 := 0x7F800000
  count  : W32 := 0
  sticky : Bool := false
  act    : Nat := 0
  deriving DecidableEq, Repr

/-- A pending engine operation: an MMA or a copy (R171, R174, R175, R185, R189). -/
structure EngOp where
  wk     : Nat
  th     : Nat             -- the elected thread
  core   : Nat
  ctx    : Nat
  kind   : Nat             -- OP − 0xD0 (R171)
  tok    : RegField
  seq    : W16
  pc     : W64
  blk    : List Byte       -- the parameter block or descriptor, as read at issue
  bound  : Bound           -- the bound register named, as held at issue (R182, R190)
  exts   : List Extent     -- the extents its hulls were checked against
  port   : Nat             -- CPYR's S[X]
  begun  : Bool
  tile   : Nat             -- MMA: the tile of the next pass
  kblk   : Nat             -- MMA: the K-block of the next pass; copy: the next block of 32 elements
  acc    : List Nat        -- MMA: the running sums of the tile, 256 codes
  count  : Nat
  sus    : Bool
  viol   : Bool
  trap   : Nat
  issued : Nat             -- ticks
  walked : Bool            -- CPYR: every write is sent
  cover  : List Nat        -- bytes it has written in uncorrectable sectors (R368)
  id     : Nat := 0        -- its number
  rdist  : Rdist := .mid   -- of a copy: where its global accesses enter their L2 lines (R149, R165)
  deriving DecidableEq, Repr

/-- A network port (R335). -/
structure Port where
  mode : Nat := 0
  rate : Nat := 0
  link : Nat := 0
  deriving DecidableEq, Repr

/-- Why a context is halted or halting: its CTX_SAVE STATE code 2, 3 or 4, or 5 for a forced reset (R363, R365). -/
abbrev HaltCode := Nat

/-- What the FAULT record of a supervisor fault will hold (R362). -/
structure FaultInfo where
  tk   : Nat          -- the team of the first trapped thread
  code : Nat
  lane : Nat
  warp : Nat
  team : Nat
  info : W64
  pc   : W64
  rec_ : Option FaultRec
  deriving DecidableEq, Repr

/-- A team record of the save area (R364). -/
structure SRec where
  off  : Nat
  len  : Nat
  grid : W32
  team : Nat
  kind : Nat
  deriving DecidableEq, Repr

/-- A context (R7, R197, R232, R318). -/
structure Ctx where
  live    : Bool := true
  root    : W64 := 0        -- page-table root (R318, R354)
  level   : Nat := 0
  prio    : Nat := 0
  det     : Bool := false
  handler : W64 := 0        -- CTX_HANDLER
  gridNo  : W32 := 0        -- the next %grid
  watchA  : List W64 := [0, 0, 0, 0]  -- WATCH_ADDR (R366)
  watchC  : List W64 := [0, 0, 0, 0]  -- WATCH_CTL (R366)
  bounds  : SMap Bound := []
  suspects : W32 := 0       -- MSTAT .susp
  passes  : W64 := 0        -- MSTAT .pass
  sstate  : Nat := 0        -- CTX_SAVE STATE, TEAMS and PAGES (R363)
  steams  : Nat := 0
  spages  : Nat := 0
  recs    : List SRec := []
  tend    : Nat := 0x1001000 -- TEND (R363, R364)
  stall   : W32 := 0        -- CTX_HANGCNT (R305)
  throt   : W32 := 0
  deques  : SMap (List W64) := [] -- deques of a context that is switched out, by core (R208)
  drainAt : Option Nat := none  -- soft-drain deadline, ticks (R365)
  haltAt  : Option Nat := none  -- hard-halt limit, ticks (R365)
  halting : Option HaltCode := none  -- a hard halt has begun (R365)
  fault   : Option FaultInfo := none -- the supervisor fault that ends its run (R362)
  gpages : Nat := 0        -- pages of the hang region that the last wait-for graph took (R363)
  deriving DecidableEq, Repr

/-- A boost lease (R219, R411). -/
structure Lease where
  level : Nat
  left  : Nat               -- intervals to go
  part  : Nat
  res   : Nat               -- reservation left
  deriving DecidableEq, Repr

/-- A BOOST claim that waits for a boundary (R219, R375). -/
structure Claim where
  wk    : Nat
  ths   : List Nat          -- the threads that issued it
  dst   : RegField
  level : Nat
  len   : Nat
  ctx   : Nat
  at_   : Nat
  deriving DecidableEq, Repr

/-- A logical cluster (R2 to R4, R219). -/
structure Cluster where
  level   : Nat := 10
  permits : Nat := 64
  locks   : List Lock := []  -- range-lock table, 32 entries (R189)
  cyc     : Nat := 0        -- cluster cycles before `cycAt`
  cycAt   : Nat := 0        -- the tick when `level` begins
  was     : Nat := 10       -- the level in effect before that tick (R371)
  next    : Nat := 10       -- the level granted, in effect once the voltage settles (R369)
  bid     : Nat := 10
  grant   : Nat := 10
  sens    : Nat := 255
  slot    : Bool := false
  lease   : Option Lease := none
  fall    : Nat := 0        -- intervals of a fall to go (R378)
  fallAt  : Nat := 0        -- the grant the fall began at
  claims  : List Claim := []
  dark    : Bool := false
  payer   : Option Nat := none  -- the partition that this interval is debited to (R411)
  slewed  : Option Nat := none  -- held by the slew limiter after a grid barrier, and until when, in ticks (R374)
  notice  : Option Nat := none  -- ticks of the engine's last rise notice (R372)
  passAt  : Option Nat := none  -- ticks of the engine's last pass (R372)
  proj    : List Nat := []  -- the current that the activity model projected at the last boundary, by level, 0.01 A (R373, R376)
  boosted : Nat := 0        -- intervals debited to a lease since the last millisecond of accrual (R410)
  deriving DecidableEq, Repr

/-- A core's own state (R2, R208, R253, R256). -/
structure CoreSt where
  ctx      : Option Nat := none
  deque    : List W64 := []      -- top first
  arrivals : List Nat := []      -- threads waiting to enter the bucket table (R253)
  posted   : List Recv := []
  queue    : List Parcel := []   -- arrival queue
  ovf      : List (Nat × Msg) := []  -- a segment core's overflow queues, by team (R292)
  owed     : List Nat := []      -- teams whose next thread admitted here takes MSG_OVERFLOW (R292)
  exts     : List Extent := []   -- extent table, 64 entries (R356)
  seg      : Option (Nat × Nat) := none  -- the travelling grid and segment pinned here
  issAt    : Option Nat := none   -- the cluster cycle of the last issue (R376)
  act      : Nat := 0             -- issue-active and memory-stall cycles of the power interval (R376)
  stl      : Nat := 0
  deriving DecidableEq, Repr
/-- An event ring (R316, R325): 0 to 15 the front ends', 16 the PF's. -/
structure Ring where
  base    : W64 := 0
  ctl     : W64 := 0x106
  head    : W32 := 0
  tail    : W32 := 0
  held    : List (List Byte) := []   -- records held in arrival order
  lost    : SMap Nat := []           -- class-B records not held, by type
  since   : Nat := 0                 -- records written since the last interrupt
  firstAt : Option Nat := none       -- ticks of the first of them
  irqs    : Nat := 0                 -- MSI-X vector 0 raised so often
  deriving DecidableEq, Repr

/-- A touchmark (R402): integrators in 1/1,024 milli-rs (R403), credit in milli-rs. -/
structure Mark where
  bti      : Nat := 0
  hci      : Nat := 0
  em       : Nat := 0
  credit   : Nat := 0
  canary   : Nat := 0
  suspects : Nat := 0
  ms       : Nat := 0       -- powered milliseconds
  anneals  : Nat := 0
  due      : Bool := false  -- RETIRE_DUE
  at_      : Nat := 0       -- module powered seconds at the last update
  deriving DecidableEq, Repr

/-- A physical cluster (R3, R369, R370, R377, R381). -/
structure Phys where
  state   : Nat := 0        -- 0 service, 1 annealing, 2 billet, 3 retired
  on      : Bool := true    -- powered
  vmin    : List Nat := List.replicate 17 30  -- VMIN(L) as VSET, found by the assay
  vset    : Nat := 30
  amps    : Nat := 0        -- measured current of the last interval, 0.01 A
  canwarn : Nat := 0
  canofs  : Nat := 0
  top     : Nat := 16       -- highest grantable level (R377)
  lower   : Nat := 0        -- levels that canaries lower `top` by at the next boundary
  droops  : SMap (Nat × Nat) := []  -- by bump group: the last power interval with an unexplained droop, and how many up to it (R370)
  cap     : Nat := 0
  bump    : Nat := 0
  failed  : Nat := 0
  phase   : Nat := 15
  hold    : Nat := 0        -- thermal: 0 none, 1 nominal, 2 level 5 (R6)
  cool    : Nat := 0        -- consecutive intervals at or below the release point
  inrush  : Nat := 0        -- 0 none, 1 waiting, 2 normal ramp, 3 slow ramp (R373)
  upAt    : Nat := 0        -- ticks of the power-up request
  rampAt  : Nat := 0        -- ticks its ramp began (R373)
  restAt  : Nat := 0        -- ticks the anneal began (R405)
  riseAt  : Option Nat := none  -- ticks when the voltage began to rise, and where it goes (R419)
  vto     : Nat := 30
  deriving DecidableEq, Repr

/-- A called billet (R408): its logical cluster, cause, unit, and how far the call has gone. -/
structure Call where
  clus  : Nat
  cause : Nat
  unit  : Nat
  base  : Nat               -- the first cause, which causes 5 and 6 follow
  phys  : Option Nat        -- the billet under test
  begun : Bool              -- the call runs
  deriving DecidableEq, Repr

/-- A mailbox (R221, R327). -/
structure Mbox where
  inW     : W64 := 0
  inFull  : Bool := false
  outW    : W64 := 0
  outFull : Bool := false
  ovr     : Bool := false
  deriving DecidableEq, Repr

/-- A FORK whose record is not read yet (R203). -/
structure ForkReq where
  wk   : Nat
  tok  : RegField
  addr : W64
  deriving DecidableEq, Repr

/-- A SEGREP under way, or an automatic replication, which has no token (R218, R290). -/
structure SegReq where
  ctx  : Nat
  tok  : Option (Nat × RegField)  -- warp and token register
  grid : W32
  seg  : Nat
  pref : Option Nat               -- preferred logical core
  deriving DecidableEq, Repr

/-- An entry record (R25); segments are index, code offset, length, handler offset. -/
structure Entry where
  code    : Nat
  warps   : Nat
  cg      : Nat
  nv      : Nat
  ns      : Nat
  scratch : Nat
  params  : Nat
  travel  : Bool
  det     : Bool
  segs    : List (Nat × Nat × Nat × Option Nat)
  deriving DecidableEq, Repr

/-- A loaded kernel image (R24, R27): its code's key, entries, sections and their addresses. -/
structure Image where
  code    : Nat
  entries : List Entry
  consts  : List Byte
  data    : List Byte
  cva     : W64
  dva     : W64
  deriving DecidableEq, Repr

/-- A graph node (R321). -/
structure GNode where
  image  : Nat
  qdepth : Nat
  lslots : Nat
  entry  : Nat
  teams  : Nat
  ranges : Option Nat
  cor    : Bool
  arep   : Bool
  bmap   : Option W64
  quiet  : Bool
  param  : W64
  succs  : List (Nat × Bool)   -- successor and EARLY
  deriving DecidableEq, Repr

/-- A loaded graph (R320, R321). -/
structure Graph where
  nodes  : List GNode
  ranges : List (List ORange)
  images : List Image
  deriving DecidableEq, Repr

/-- A queued trigger (R322). -/
structure Trig where
  ctx   : Nat
  graph : Nat
  patch : W64
  seq   : W32
  deriving DecidableEq, Repr

/-- A node of a run (R323): waiting, launched as a grid, or ended with a status. -/
inductive NodeSt where
  | waiting
  | launched (grid : Nat)
  | ended (status : Nat)
  deriving DecidableEq, Repr

/-- A run (R323): its trigger, its graph, its nodes and their parameter slots. -/
structure Run where
  trig   : Trig
  graph  : Graph
  nodes  : List NodeSt
  slots  : List Nat
  deriving DecidableEq, Repr

/-- A GRAPH_CMD under way (R320). -/
structure GCmd where
  graph  : Nat
  unload : Bool
  image  : W64
  deriving DecidableEq, Repr

/-- A front end (R316 to R331). -/
structure Fe where
  trigPatch : W64 := 0
  seq       : W32 := 0               -- the next sequence number (R322)
  queue     : List Trig := []
  lastErr   : Nat := 0
  gcmd      : Option GCmd := none
  gstat     : W64 := 0               -- GRAPH_STAT without BUSY
  resImage  : W64 := 0
  resIm     : Option Image := none    -- the resident image as it was copied (R327)
  resLaunch : W64 := 0
  resParam  : W64 := 0
  resRanges : W64 := 0
  resCbase  : W64 := 0
  resDbase  : W64 := 0
  resizeLim : W64 := 0x0000000004000008  -- FE_RESIZE_LIM (R331)
  holder    : Option Nat := none     -- the context number that holds the slice (R319)
  prev      : Option Nat := none
  sliceAt   : Nat := 0               -- ticks when the slice began
  resGrid   : Option Nat := none     -- the resident grid that runs
  tdi       : Nat := 0               -- 0 CONFIG_UNLOCKED, 1 CONFIG_LOCKED, 2 RUN, 3 ERROR (R330)
  secure    : Bool := false          -- the VF's IDE stream is secure (R330)
  vf        : Bool := true           -- the VF exists (R333)
  deriving DecidableEq, Repr

/-- One entry of a resize descriptor (R347). -/
structure REnt where
  part : Nat
  diss : Bool
  keep : Bool
  ports : Nat
  base : Nat
  limit : Nat
  chan : W64
  colour : W64
  deriving DecidableEq, Repr

/-- A resize under way (R346 to R350): its partition, its state's code from 1 REQUESTED to 6 SHOOTDOWN, where its descriptor lies,
its entries, and when it began and quiesced. -/
structure Resize where
  part    : Nat
  state   : Nat
  addr    : Nat
  host    : Bool              -- ADDR is a host address
  ctx     : Nat               -- else the writing context
  level   : Nat               -- and its level
  ents    : List REnt
  dl      : Nat               -- DEADLINE, µs
  tag     : W64
  at_     : Nat               -- ticks of the OP 0 write
  since   : Nat               -- ticks of entry into QUIESCING
  moved   : List Nat          -- the halted teams
  invs    : Nat               -- commands to complete before SHOOTDOWN ends
  colours : Bool              -- a colour set has changed
  deriving DecidableEq, Repr

/-- An invalidate command that waits: its address, and whether it is a host address or one of a context (R358). -/
structure InvCmd where
  addr : Nat
  host : Bool
  ctx  : Nat
  deriving DecidableEq, Repr

/-- An invalidate command in progress (R358, R359). -/
structure InvRun where
  fe    : Nat
  ctx   : Nat
  kind  : Nat
  start : Nat
  len   : Nat
  tag   : W64
  cores : Nat               -- cores that acknowledge
  deriving DecidableEq, Repr

/-- A firmware image as the controller holds it (R394): whether it verifies, its security version, the first 8 bytes of its digest. -/
structure Fw where
  good   : Bool := true
  ver    : Nat := 0
  digest : List Byte := [0, 0, 0, 0, 0, 0, 0, 0]
  deriving DecidableEq, Repr

/-- The management mailbox and the firmware behind it (R391 to R395). -/
structure Mgmt where
  step    : Nat := 8               -- assay STEP: 0 before step 1, 8 after success (R395)
  cause   : Nat := 0               -- hold CAUSE, 0 when not in hold
  result  : Nat := 0
  outLen  : Nat := 0
  data    : List Byte := List.replicate 3840 0
  staging : Option (Nat × List Byte) := none   -- declared length and the bytes so far
  commit  : Bool := false          -- BUSY: FW_COMMIT verifies and writes
  stored  : Fw := {}
  running : Fw := {}
  fused   : Nat := 0               -- the fused minimum security version
  log     : List Byte := []        -- the assay log
  heat    : List (List Byte) := [] -- THERMAL records for the PF ring once hold is left (R6)
  past2   : Bool := true           -- the last assay has passed step 2 (R417)
  deriving DecidableEq, Repr

/-- A touchmark checkpoint of the record store (R415): its sequence, its touchmarks and their SHA-256 digest. -/
structure Ckpt where
  seq    : Nat
  marks  : SMap Mark
  digest : List Byte
  deriving DecidableEq, Repr

/-- Hallmarks (R416, R417). -/
structure Hall where
  seq   : Nat := 0
  busy  : Bool := false
  shown : Nat := 0                 -- the sequence of the current hallmark, 0 none
  bytes : List Byte := []          -- its bytes
  page  : Nat := 0                 -- HM_PAGE
  owed  : Nat := 0                 -- hallmarks that checkpoints have asked for during a generation (R416)
  kept  : List (Nat × List Byte) := []  -- the record store's latest 128: sequence and bytes, newest first (R415)
  deriving DecidableEq, Repr

/-- The SPDM responder (R329): how far negotiation and session have gone, secure streams by function, the last answer. -/
structure Spdm where
  phase   : Nat := 0               -- 0 none, 1 version, 2 capabilities, 3 algorithms
  session : Nat := 0               -- 0 none, 1 keys exchanged, 2 established
  keyGen  : Nat := 0               -- key updates of the session
  reply   : List Nat := []         -- the answer: its message code, then its content
  secure  : Bool := false          -- the PF's IDE stream is secure (R329)
  deriving DecidableEq, Repr

/-- A queue pair (R336). -/
structure Qp where
  ctx     : Nat
  flags   : Nat
  mtu     : Nat
  dest    : Nat
  sendPsn : Nat
  recvPsn : Nat
  gid     : List Byte
  mac     : List Byte
  udp     : Nat
  tclass  : Nat
  hop     : Nat
  retry   : Nat
  ack     : Nat
  ring    : Nat
  entries : Nat
  count   : Nat                    -- virtual address of the consumed count
  arrived : Nat
  deriving DecidableEq, Repr

/-- A memory key (R336). -/
structure RKey where
  ctx   : Nat
  read  : Bool
  write : Bool
  va    : Nat
  len   : Nat
  deriving DecidableEq, Repr

/-- A request of a peer that waits on a HOLD entry (R336, R357): its port and queue pair, and what it asks, 0 SEND, 1 RDMA WRITE, 2 RDMA READ,
with its key or source, its address and its bytes or length. -/
structure RoceReq where
  port : Nat
  qp   : Nat
  kind : Nat
  key  : Nat
  va   : Nat
  bs   : List Byte
  n    : Nat
  deriving DecidableEq, Repr

/-- A scrub pass of a unit (R387 to R390): 0 to 63 the channel groups, 64 on the SRAMs. -/
structure Scrub where
  pos    : Nat                     -- the next sector or word
  start  : Nat                     -- ticks when the pass began
  limit  : Nat                     -- its deadline, ticks after that
  take   : Bool                    -- its takeover is active (R388)
  held   : Option (Nat × List Byte)  -- a corrected sector to write back, as it was read (R389)
  gen0   : Nat := 0                -- its group's erasures when the pass began (R387)
  deriving DecidableEq, Repr

/-- What a turn of the schedule does: a group issues its next word, or an event happens. -/
inductive Act where
  | issue (gid : Nat)
  | event (e : Instr)
  deriving DecidableEq, Repr

/-- One turn of the schedule: the time that passes before it, in ticks of 1/84 ns, and what happens. -/
structure Turn where
  dt  : Nat
  host : List (Nat × Byte) := []  -- bytes the host puts in its memory meanwhile
  errs : List (ErrArg × Option Nat) := []  -- errors that the checks of any hop have found meanwhile, with the context concerned (R383)
  act : Act
  deriving DecidableEq, Repr

/-- Bytes at addresses: strictly rising addresses, and no entry equal to what an unlisted address reads as. -/
abbrev Memory := SMap Byte

/-- The canonical form of a memory whose unlisted bytes read 0 (assumption 6). -/
def Memory.wf (m : Memory) : Bool := SMap.canon 0 m

/-- The machine. -/
structure State where
  now     : Nat := 0                 -- ticks since power-on
  resetAt : Nat := 0                 -- ticks at the last device reset (R265)
  agenda  : List Turn := []
  cur     : Option Nat := none       -- the group that issues
  nid     : Nat := 1                 -- the next number for a group, an operation or an instance
  fc      : Nat := 0                 -- the free-value counter (the model's own)
  v       : SMap W32 := []           -- lane registers, key 256 thread + register
  sr      : SMap W64 := []           -- scalar registers, key 64 warp + register
  pr      : SMap Bool := []          -- predicates, key 8 thread + register
  vbusy   : SMap Nat := []           -- lane registers an issued form has yet to write, with its operation
  sbusy   : SMap Nat := []           -- scalar registers likewise, pending tokens among them
  vown    : SMap (List Nat) := []    -- engine-owned lane registers, with the operations that own them
  vread   : SMap (List Nat) := []    -- engine-read lane registers
  vbad    : SMap Unit := []          -- lane registers that hold an uncorrectable error (R368)
  sbad    : SMap Unit := []          -- scalar registers likewise
  codeBad : SMap Unit := []          -- instruction-store words likewise, key 2^40 code + index
  armed   : SMap Nat := []           -- armed token registers and their trap codes
  threads : SMap Thread := []
  warps   : SMap Warp := []
  teams   : SMap Team := []
  grids   : SMap Grid := []
  codes   : SMap Code := []
  groups  : SMap Group := []
  rdvs    : SMap Rdv := []
  bars    : SMap Bar := []
  cores   : SMap CoreSt := []
  clusters : SMap Cluster := []
  ops     : SMap MemOp := []
  pend    : SMap Pend := []
  eng     : SMap EngOp := []         -- the engines' reservation tables
  ports   : SMap Port := []
  peers   : SMap Byte := []          -- bytes CPYR has sent to peers, key 2^64 port + address (R190)
  mem     : Memory := []             -- physical memory; an unlisted byte reads zero
  bad     : SMap Unit := []          -- sectors that hold an uncorrectable error (R148); words of scheduler memory, key 2^60 + word (R384)
  heal    : SMap W32 := []           -- of an uncorrectable sector: its bytes that one thread has stored since, key 2^64 thread + sector (R368, R389)
  tabs    : SMap Nat := []           -- table entries above level 4 that the graph engines hold, key 2^48 context + address (R358)
  scr     : SMap Byte := []          -- scratchpads, key 2^18 owner + offset
  scrBad  : SMap Unit := []          -- scratchpad words that hold an uncorrectable error (R368)
  l1      : SMap L1Sec := []         -- L1 copies, key 2^45 core + sector
  l2      : SMap L2Line := []        -- L2 lines, key physical address / 128 (R339)
  extUse  : SMap Nat := []           -- ticks of the last access through an extent, key 2^48 core + virtual address (R275)
  slots   : SMap Unit := []         -- occupied parameter slots, key 2^28 context + slot (R428)
  cells   : SMap Cell := []          -- open exact cells by physical address
  flying  : List Parcel := []        -- departures waiting to enter an arrival queue (R216)
  msgs    : List Flight := []        -- messages on their way, in the order they were sent (R210)
  forks   : SMap ForkReq := []       -- FORKs not accepted yet
  segreqs : SMap SegReq := []        -- segment replications under way (R218)
  saved   : SMap CoreSt := []        -- segment cores of halted travelling grids, key 4096 grid + core (R294)
  mb      : SMap Mbox := []          -- mailboxes, key 8 front end + number
  slewOfs : SMap Nat := []           -- OFS of a partition's slew limiter (R374)
  ctxs    : SMap Ctx := []
  rings   : SMap Ring := []
  fes     : SMap Fe := []            -- front ends
  graphs  : SMap Graph := []         -- loaded graphs, key 256 front end + identity
  rsz     : Option Resize := none    -- the resize under way (R348)
  rstat   : SMap W64 := []           -- RESIZE_STAT of a partition without STATE (R346)
  invQ    : List InvCmd := []        -- INV_QUEUE (R358)
  invRun  : Option InvRun := none
  invDone : Nat := 0                 -- DONE and DROPPED of INV_STATUS (R359)
  invDrop : Nat := 0
  quota   : SMap Nat := []           -- L2 ways, key 16 colour + partition (R345)
  movedAt : SMap Nat := []           -- the millisecond of %wall when a shared colour's ways were last looked at (R345)
  gens    : SMap Nat := []           -- erasures of a channel group; its generation is their number mod 16 (R332)
  genBase : SMap Nat := []           -- erasures at the last completed DRAM scrub pass (R332)
  hinted  : SMap Unit := []          -- ranges reported by HINT_MISMATCH, key 16 grid + range (R361)
  hintCnt : SMap HintCnt := []       -- L2 lookups of declared ranges in this window, likewise (R361)
  hintWin : Nat := 0                 -- the window of 10 ms of %wall that they belong to (R361)
  runs    : SMap Run := []           -- the run of a context, by its key
  host    : SMap Byte := []          -- host memory as DMA reaches it; an unlisted byte reads zero
  hostNo  : SMap Unit := []          -- 4 KB pages of host memory that DMA cannot reach
  elog    : List (List Byte) := []   -- the record store's event log, oldest first (R415)
  off     : Bool := false            -- power is off (R391, R415)
  mg      : Mgmt := {}
  hm      : Hall := {}
  spdm    : Spdm := {}
  qps     : SMap Qp := []            -- queue pairs, key 4096 port + number (R336)
  rkeys   : SMap RKey := []          -- memory keys (R336)
  roce    : List RoceReq := []       -- requests that wait on a HOLD entry (R336)
  netOut  : Nat × List Byte := (0, [])  -- the last answer to a peer: 0 done, 1 RNR NAK, 2 access error, 3 invalid request, 4 none, 5 flush (R336)
  scrubs  : SMap Scrub := []         -- scrub passes by unit (R387)
  jmarks  : SMap Mark := []          -- the journal: touchmarks changed since the newest checkpoint, as last written (R415)
  ckA     : Option Ckpt := none      -- checkpoints A and B (R415)
  ckB     : Option Ckpt := none
  retired : SMap Unit := []          -- slices and link macros that an assay retired (R391, R402)
  jsec    : Nat := 0                 -- module powered seconds at the last journal write
  jhour   : Nat := 0                 -- and hours at the last checkpoint
  wearMs  : Nat := 0                 -- milliseconds of wear accrued since power-on (R403)
  vfClear : Bool := false            -- VF Enable has been cleared and a resize completes first (R333)
  watchAt : SMap Nat := []           -- ticks of the last WATCH_HIT record, key 4 context + watchpoint (R367)
  serve   : SMap Nat := []           -- the physical cluster of a logical index, 264 die + number (R3)
  made    : SMap Nat := []           -- the manufacturing record: what a physical cluster does at delivery, 0 serve, 1 anneal, 2 billet (R3)
  phys    : SMap Phys := []          -- physical clusters, key 264 die + number
  marks   : SMap Mark := []          -- touchmarks by unit id (R401)
  relDue  : SMap Nat := []           -- reservations that the next boundary releases, by partition (R412)
  merges  : List (Nat × Nat) := []   -- budgets that the next boundary adds to a survivor's: dissolved partition, survivor (R410, R412)
  charged : Nat := 0                 -- power intervals whose charges are made (R375)
  btiLog  : SMap (List (Nat × Nat)) := []  -- a unit's BTI after milliseconds of accrual, newest first: millisecond, 1/1,024 milli-rs (R405)
  interval : Nat := 0                -- power intervals that have ended (R375)
  onAt    : Nat := 0                 -- ticks at the last power-on
  sec0    : Nat := 0                 -- module powered seconds then (R415)
  hours   : SMap Nat := []           -- powered hours whose refill a partition has had (R410)
  strain  : SMap Nat := []           -- stress charged to a logical index in the hour, 1/1,024 milli-rs (R410)
  refills : SMap W64 := []           -- the last refill of a partition (R416)
  rotAt   : SMap Nat := []           -- ticks of a die's last anneal rotation (R405)
  skips   : SMap Nat := []           -- rotations a sector has skipped for a co-resident grid, key 3 die + sector (R405)
  swaps   : SMap Nat := []           -- the cluster that a sector's rotation brings back, key 3 die + sector (R405)
  called  : SMap Nat := []           -- billets called, by die (R416)
  calls   : List Call := []          -- billet calls in the order their causes arose (R409)
  errAt   : SMap Nat := []           -- ticks of the last corrected-error record of a unit (R386)
  csr     : SMap W64 := []           -- device registers by selector, where not at their reset value (R232)
  deriving DecidableEq, Repr

/-- The machine right after reset: no context, code, thread or memory byte listed; the device registers at the reset values their rules
give, and every register without one at the value assumption 1 names. -/
def State.reset : State := {}

end Sys2Proof.Machine
end

