-- ==== Sys2Proof/Machine/Operands.lean ====
section
/-!
DEFINITION. Operands: the one place where registers are read and written (R37 to R40, R112, R140). vz and sz read zero and discard
writes; pt reads true. A write of a scalar register clears its armed mark (R172); a write of a register clears its error (R368).
-/
namespace Sys2Proof.Machine

/-- The key of a lane register. -/
def vkey (th r : Nat) : Nat := 256 * th + r
/-- The key of a scalar register. -/
def skey (wk r : Nat) : Nat := 64 * wk + r
/-- The key of a predicate. -/
def pkey (th p : Nat) : Nat := 8 * th + p

/-- A lane register; v255 is vz (R39). -/
def State.vget (s : State) (th r : Nat) : W32 := if r = 255 then 0 else SMap.read 0 s.v (vkey th r)

/-- A write of a lane register; vz discards (R39). -/
def State.vset (s : State) (th r : Nat) (x : W32) : State :=
  if r = 255 then s else { s with v := SMap.write 0 s.v (vkey th r) x, vbad := SMap.del s.vbad (vkey th r) }

/-- An even lane pair (R51). -/
def State.vgetp (s : State) (th r : Nat) : W64 := pair (s.vget th r) (s.vget th (r + 1))

/-- A write of an even lane pair (R51). -/
def State.vsetp (s : State) (th r : Nat) (x : W64) : State := (s.vset th r (lo32 x)).vset th (r + 1) (hi32 x)

/-- A scalar register; s63 is sz (R39). -/
def State.sget (s : State) (wk r : Nat) : W64 := if r = 63 then 0 else SMap.read 0 s.sr (skey wk r)

/-- A write of a scalar register; sz discards, and an armed mark is cleared (R39, R172). -/
def State.sset (s : State) (wk r : Nat) (x : W64) : State :=
  if r = 63 then s
  else { s with sr := SMap.write 0 s.sr (skey wk r) x, armed := SMap.del s.armed (skey wk r), sbad := SMap.del s.sbad (skey wk r) }

/-- A predicate; p7 is pt (R39). -/
def State.pget (s : State) (th p : Nat) : Bool := if p = 7 then true else SMap.read false s.pr (pkey th p)

/-- A write of a predicate p0 to p6. -/
def State.pset (s : State) (th p : Nat) (x : Bool) : State :=
  if p = 7 then s else { s with pr := SMap.write false s.pr (pkey th p) x }

/-- A guard's value in a thread (R37, R38). -/
def State.guard (s : State) (th : Nat) : Guard → Bool
  | .always => true
  | .pos p => s.pget th p.val
  | .neg p => !s.pget th p.val

/-- A lane operand of a type's width, as a number (R112, R113). -/
def State.lane (s : State) (th : Nat) (wide : Bool) (r : RegField) : Nat :=
  if wide then (s.vgetp th r.toNat).toNat else (s.vget th r.toNat).toNat

/-- A write of a lane operand (R112). -/
def State.setLane (s : State) (th : Nat) (wide : Bool) (r : RegField) (x : Nat) : State :=
  if wide then s.vsetp th r.toNat (BitVec.ofNat 64 x) else s.vset th r.toNat (BitVec.ofNat 32 x)

/-- Operand B: a lane operand, or a scalar broadcast of 32 or 64 bits (R112). -/
def State.opB (s : State) (wk th : Nat) (wide : Bool) (f : Vr) : Nat :=
  if f.sb then (if wide then (s.sget wk f.b.toNat).toNat else (s.sget wk f.b.toNat).toNat % 2 ^ 32)
  else s.lane th wide f.b

/-- A fresh free value, and the state that has used it (assumption 3). -/
def State.free (s : State) : W64 × State := (Config.freeValue s.fc, { s with fc := s.fc + 1 })

/-- A fresh number for a group, an operation or an instance. -/
def State.newId (s : State) : Nat × State := (s.nid, { s with nid := s.nid + 1 })

/-! Formed addresses (R143). -/

/-- The formed address of an M form (R143). -/
def Mem.addr (s : State) (wk th : Nat) (f : Me) : W64 :=
  (if f.as_ then s.sget wk f.a.toNat else s.vgetp th f.a.toNat) + f.ofs.signExtend 64

/-- The address of an MA form (R143). -/
def Ma.addrOf (s : State) (wk th : Nat) (f : Ma) : W64 := if f.as_ then s.sget wk f.a.toNat else s.vgetp th f.a.toNat

/-- The address that a memory form of opcodes 0xA0 to 0xB5 forms (R139, R143). -/
def State.formed (s : State) (i : Instr) (wk th : Nat) : Option W64 :=
  match i with
  | .ld f | .st f | .sld f | .sst f | .lds f | .sts f | .ldx f | .stx f | .stcmp f | .ldexp f | .pref f => some (Mem.addr s wk th f)
  | .atom f | .acas f | .atoms f | .acass f | .xopen f | .xclose f => some (Ma.addrOf s wk th f)
  | _ => none

end Sys2Proof.Machine
end

