-- ==== Sys2Proof/Machine/Ops.lean ====
section
/-!
DEFINITION. The named operations over the machine: time, thread placement, wait counters, taking a trap and returning from one,
clause entry and end, and the one skeleton by which every instruction issues (R32, R38, R75 to R82, R225, R226, R293).
-/
namespace Sys2Proof.Machine

/-! Time (R4, R9, R264): one tick is 1/84 ns, a master cycle is 75 ticks, a fabric cycle 40. -/

/-- A cluster's state; an unlisted cluster holds the defaults. -/
def State.cluster (s : State) (c : Nat) : Cluster := (SMap.look s.clusters c).getD {}

/-- Master pulses a pattern level passes up to a tick (assumption 5). -/
def passed (level t : Nat) : Nat := t / 75 * level / 16

/-- A cluster's cycle count up to a tick no earlier than its last change of level but one (R4, R371). -/
def Cluster.cycles (k : Cluster) (t : Nat) : Nat :=
  if t < k.cycAt then k.cyc - (passed k.was k.cycAt - passed k.was t) else k.cyc + (passed k.level t - passed k.level k.cycAt)

/-- A cluster's cycle count. -/
def State.clusCyc (s : State) (c : Nat) : Nat := (s.cluster c).cycles s.now

/-- The level in effect (R371, R381). -/
def State.levelOf (s : State) (c : Nat) : Nat := let k := s.cluster c; if s.now < k.cycAt then k.was else k.level

/-- A core's state; an unlisted core holds the defaults. -/
def State.coreOf (s : State) (c : Nat) : CoreSt := (SMap.look s.cores c).getD {}

/-- One core changed. -/
def State.updCore (s : State) (c : Nat) (f : CoreSt → CoreSt) : State :=
  { s with cores := SMap.ins s.cores c (f (s.coreOf c)) }

/-- One thread changed where it exists. -/
def State.updThread (s : State) (th : Nat) (f : Thread → Thread) : State := { s with threads := SMap.upd s.threads th f }
/-- One warp changed where it exists. -/
def State.updWarp (s : State) (wk : Nat) (f : Warp → Warp) : State := { s with warps := SMap.upd s.warps wk f }
/-- One team changed where it exists. -/
def State.updTeam (s : State) (tk : Nat) (f : Team → Team) : State := { s with teams := SMap.upd s.teams tk f }
/-- One grid changed where it exists. -/
def State.updGrid (s : State) (gk : Nat) (f : Grid → Grid) : State := { s with grids := SMap.upd s.grids gk f }
/-- One group changed where it exists. -/
def State.updGroup (s : State) (gid : Nat) (f : Group → Group) : State := { s with groups := SMap.upd s.groups gid f }
/-- One context changed where it exists. -/
def State.updCtx (s : State) (ck : Nat) (f : Ctx → Ctx) : State := { s with ctxs := SMap.upd s.ctxs ck f }

/-- The team of a thread key: 2,048 keys a team. -/
def teamOfTh (th : Nat) : Nat := th / 2048
/-- %tid of a thread key (R103). -/
def tidOf (th : Nat) : Nat := th % 2048
/-- The key of a team's thread. -/
def thKey (tk tid : Nat) : Nat := 2048 * tk + tid
/-- The key of an ordinary warp: even, 64 a team. -/
def warpKey (tk idx : Nat) : Nat := 2 * (64 * tk + idx)
/-- The key of a warp slot of a segment core: odd. -/
def slotKey (core slot : Nat) : Nat := 2 * (64 * core + slot) + 1

/-- The context of a team. -/
def State.gridOfTeam (s : State) (tk : Nat) : Option Grid :=
  (SMap.look s.teams tk).bind (fun t => SMap.look s.grids t.grid)

/-- A team's context, the defaults where there is none. -/
def State.ctxOfTeam (s : State) (tk : Nat) : Ctx :=
  match s.gridOfTeam tk with
  | some g => (SMap.look s.ctxs g.ctx).getD {}
  | none => {}

/-- Context cycles a team has run: the cycles of its cluster while it stands on a core and is not stopped (R264). -/
def State.teamCyc (s : State) (tk : Nat) : Nat :=
  match SMap.look s.teams tk with
  | some t => if t.at_ = .placed && t.run then t.cyc + (s.clusCyc (t.core / 4) - t.cycAt) else t.cyc
  | none => 0

/-- A team's context cycles stand still: it is halted, suspended or switched out (R264). -/
def State.stopCycles (s : State) (tk : Nat) : State :=
  let n := s.teamCyc tk
  s.updTeam tk (fun t => { t with cyc := n, run := false })

/-- A team's context cycles count again, on the core it now holds (R264). -/
def State.goCycles (s : State) (tk : Nat) : State :=
  s.updTeam tk (fun t => { t with cycAt := s.clusCyc (t.core / 4), run := true })

/-- Every team of a context stops (R264, R365). -/
def State.stopContext (s : State) (ck : Nat) : State :=
  s.teams.foldl (fun s e => if (s.gridOfTeam e.1).any (fun g => g.ctx == ck) then s.stopCycles e.1 else s) s

/-- A team has issued an instruction: %cycle counts from its first (R264). -/
def State.begun (s : State) (tk : Nat) : State :=
  let n := s.teamCyc tk
  s.updTeam tk (fun t => { t with first := some (t.first.getD n) })

/-- %cycle of a team (R103, R264): its context cycles since its first instruction. -/
def State.cycleOf (s : State) (tk : Nat) : Nat :=
  match (SMap.look s.teams tk).bind Team.first with
  | some n => s.teamCyc tk - n
  | none => 0

/-- %wtimer of a warp now (R104, R266): the count written, less the context cycles run since. -/
def State.wtimerOf (s : State) (wk : Nat) : W32 :=
  match SMap.look s.warps wk with
  | some w => BitVec.ofNat 32 (w.wtimer.toNat - (s.teamCyc w.team - w.wtAt))
  | none => 0

/-- A warp's count has run out: every thread of it owes a TIMER at the next clause boundary it reaches (R104). -/
def State.expireTimer (s : State) (wk : Nat) : State :=
  match SMap.look s.warps wk with
  | none => s
  | some w =>
    if w.wtimer ≠ 0 ∧ s.wtimerOf wk = 0 then
      { s with warps := SMap.upd s.warps wk (fun w => { w with wtimer := 0 })
               threads := SMap.mapV (fun _ t => if t.wk == wk && t.stat.here then { t with timer := true } else t) s.threads }
    else s

/-- The core a thread occupies: its team's, or its slot's on a segment core (R103). -/
def State.coreOfTh (s : State) (th : Nat) : Nat :=
  match SMap.look s.threads th with
  | some t => if t.wk % 2 = 1 then t.wk / 2 / 64
              else ((SMap.look s.teams (teamOfTh th)).map Team.core).getD 0
  | none => 0

/-! The bucket table (R253). -/

/-- The keys (team, PC) that hold an entry of a core's bucket table. -/
def State.tableKeys (s : State) (core : Nat) : List (Nat × W64) :=
  ((s.threads.filter (fun e => e.2.inTable && s.coreOfTh e.1 == core)).map
    (fun e => (teamOfTh e.1, e.2.pc))).eraseDups

/-- A ready thread goes into the entry of its key, a free entry, or the core's arrival list (R253). -/
def State.placeReady (s : State) (th : Nat) : State :=
  match SMap.look s.threads th with
  | none => s
  | some t =>
    let core := s.coreOfTh th
    let ks := s.tableKeys core
    let fits := ks.contains (teamOfTh th, t.pc) || decide (ks.length < 256)
    let s1 := s.updThread th (fun t => { t with stat := .ready, inTable := fits, since := s.teamCyc (teamOfTh th) })
    if fits then s1 else s1.updCore core (fun c => { c with arrivals := c.arrivals ++ [th] })

/-- Threads of the arrival list enter the table, in list order, while an entry is free; their age counts from there (R253). -/
def admitArrivals : List Nat → Nat → State → State
  | [], _, s => s
  | th :: ths, core, s =>
    match SMap.look s.threads th with
    | none => admitArrivals ths core (s.updCore core (fun c => { c with arrivals := c.arrivals.filter (· ≠ th) }))
    | some t =>
      if t.stat ≠ .ready || t.inTable then admitArrivals ths core (s.updCore core (fun c => { c with arrivals := c.arrivals.filter (· ≠ th) })) else
      let ks := s.tableKeys core
      if ks.contains (teamOfTh th, t.pc) || decide (ks.length < 256) then
        admitArrivals ths core
          ((s.updThread th (fun t => { t with inTable := true, since := s.teamCyc (teamOfTh th) })).updCore core
            (fun c => { c with arrivals := c.arrivals.filter (· ≠ th) }))
      else s

/-- The arrival list is looked at whenever an entry may have freed. -/
def State.pumpTable (s : State) (core : Nat) : State := admitArrivals (s.coreOf core).arrivals core s

/-- Every core with an arrival list looked at (R253). -/
def State.settleTables (s : State) : State :=
  s.cores.foldl (fun s e => if e.2.arrivals.isEmpty then s else s.pumpTable e.1) s

/-! Wait counters (R77). -/

/-- Completions are released in issue order: completed entries leave a counter from its front. -/
def releaseFront (w : Nat) : List CEntry → List CEntry
  | [] => []
  | e :: es => if e.w = w then (if e.left = 0 then releaseFront w es else e :: es) else e :: releaseFront w es

/-- Every counter released. -/
def releaseAll (es : List CEntry) : List CEntry :=
  [0, 1, 2, 3, 4, 5].foldl (fun l w => releaseFront w l) es

/-- What a wait on a counter sees (R32, R77). -/
def Warp.count (w : Warp) (n : Nat) : Nat := (w.entries.filter (fun e => e.w == n)).length

/-- Lanes of an operation answer: they leave its counter entry (R77, R78). -/
def State.answer (s : State) (wk op : Nat) (lanes : W32) : State :=
  s.updWarp wk (fun w => { w with entries := releaseAll (w.entries.map (fun e => if e.op = op then { e with left := e.left &&& ~~~lanes } else e)) })

/-- One entry on a counter of a warp (R77). -/
def State.addEntry (s : State) (wk w op : Nat) (lanes : W32) : State :=
  s.updWarp wk (fun x => { x with entries := releaseAll (x.entries ++ [{ w := w, op := op, left := lanes }]) })

/-- The operations of a warp that are issued and not complete, store-queue entries among them (R226). -/
def State.warpOps (s : State) (wk : Nat) : Nat := (s.ops.filter (fun e => e.2.wk == wk && !e.2.held)).length

/-! Taking a trap (R225, R293, R427). -/

/-- One thread out of a group (R75): a SLEEP or YIELD it has issued in the clause goes with it (R110, R222). -/
def State.outOf (s : State) (gid th : Nat) : State :=
  match SMap.look s.groups gid with
  | none => s
  | some g =>
    let s1 := s.updGroup gid (fun g => { g with threads := g.threads.filter (· ≠ th), latch := [] })
    match g.sleepers.find? (fun p => p.1 == th), g.yielders.contains th with
    | none, false => s1
    | p, y => s1.updThread th (fun t => { t with slp := p.map Prod.snd, yld := y })

/-- A latch holds the value of a lane register (or a scalar register) with one of the keys. -/
def Latch.names (l : Latch) (lane : Bool) (ks : List Nat) : Bool :=
  (match l.opnd with | .p _ => false | .s _ => !lane | _ => lane) && l.vals.any (fun e => ks.contains e.1)

/-- An engine writes registers: every latch of one of them is discarded (R82). -/
def State.unlatch (s : State) (lane : Bool) (ks : List Nat) : State :=
  if s.groups.any (fun e => e.2.latch.any (fun l => l.names lane ks)) then
    { s with groups := SMap.mapV (fun _ g => { g with latch := g.latch.filter (fun l => !l.names lane ks) }) s.groups }
  else s

/-- One thread out of its group (R75). -/
def State.leaveGroup (s : State) (th : Nat) : State :=
  match SMap.look s.threads th with
  | some t =>
    match t.stat with
    | .grouped gid | .yielding gid => s.outOf gid th
    | _ => s
  | none => s

/-- A thread leaves every incomplete rendezvous it has joined (R97). -/
def State.leaveRdv (s : State) (th : Nat) : State :=
  { s with rdvs := SMap.mapV (fun _ r => { r with members := r.members.filter (fun m => m.th ≠ th) }) s.rdvs
           threads := SMap.upd s.threads th (fun t => { t with rdv := none, rdvDone := false }) }

/-- The word s61 receives: the trap code, the count of replay entries, the first new entry (R225). -/
def s61Word (code n first : Nat) : W64 := BitVec.ofNat 64 (code % 256 + 256 * (n % 64) + 65536 * (first % 32))

/-- The threads of a warp in handler state. -/
def State.inHandler (s : State) (wk : Nat) : Bool := s.threads.any (fun e => e.2.wk == wk && e.2.handler)

/-- The replay entries of a slot's queue that name a lane (R293). -/
def laneEntries (rq : List REntry) (lane : Nat) : List REntry := rq.filter (fun e => laneBit e.mask lane)

/-- A hard halt moves on the generation tag of every warp of the context (R226, R365). -/
def State.bumpTags (s : State) (ck : Nat) : State :=
  { s with warps := SMap.mapV (fun _ w =>
      if (s.gridOfTeam w.team).any (fun g => g.ctx == ck) then { w with gen := (w.gen + 1) % 16 } else w) s.warps }

/-- A thread enters handler state at an address and is ready there (R225). -/
def State.enterHandler (s : State) (r : TrapReq) (addr : W64) : State :=
  (s.updThread r.th (fun t => { t with handler := true, rpc := r.rpc, pc := addr, came := none, frec := r.rec_ })).placeReady r.th

/-- A trap the supervisor takes: the thread stops, the context's hard halt begins and each of its warps' generation tags moves
on; the first such trap is the one its FAULT record names (R225, R362, R365). -/
def State.supervisor (s : State) (r : TrapReq) (pc : Option W64) : State :=
  let s1 := s.updThread r.th (fun t => { t with stat := .held, inTable := false, frec := r.rec_ })
  match SMap.look s1.threads r.th, s1.gridOfTeam (teamOfTh r.th), SMap.look s1.teams (teamOfTh r.th) with
  | some t, some g, some tm =>
    let f := s1.free
    let info : FaultInfo := { tk := teamOfTh r.th, code := r.code, lane := t.lane, warp := tidOf r.th / 32, team := tm.idx, info := r.info,
                              pc := pc.getD f.1 &&& 0xFFFFFFFFFFFF, rec_ := r.rec_ }
    let c := (SMap.look s.ctxs g.ctx).getD {}
    if c.fault.isSome then s1
    else
      let s2 := f.2.updCtx g.ctx (fun c => { c with halting := some 4, fault := some info })
      if c.halting.isSome then s2 else (s2.stopContext g.ctx).bumpTags g.ctx
  | _, _, _ => s1

/-- The handler of a thread's trap: the context's, or its segment's in a travelling grid; none sends it to the supervisor. -/
def State.handlerOf (s : State) (th : Nat) : Option W64 :=
  match s.gridOfTeam (teamOfTh th), SMap.look s.threads th with
  | some g, some t =>
    let c := (SMap.look s.ctxs g.ctx).getD {}
    if !c.handler.getLsbD 0 || t.handler then none
    else if g.travel then
      match SMap.look g.segs t.seg with
      | some sg => if sg.handler = 0 then none else some sg.handler
      | none => none
    else some (c.handler &&& 0x0000FFFFFFFFFFF8)
  | _, _ => none

/-- One trap of a travelling thread (R293): s61 and s62 are the thread's own, and nothing is held. -/
def State.trapTravel (s : State) (r : TrapReq) : State :=
  match s.handlerOf r.th, SMap.look s.threads r.th with
  | some h, some t =>
    let rq := ((SMap.look s.warps t.wk).map Warp.rq).getD []
    let mine := laneEntries rq t.lane
    let n := match r.entry with | some _ => 1 | none => 0
    let first := match r.entry with | some _ => mine.length - 1 | none => Config.trapFirst r.code r.info r.rpc n
    (s.updThread r.th (fun t => { t with h61 := s61Word r.code n first, h62 := r.info })).enterHandler r h
  | _, some t => s.supervisor r ((laneEntries (((SMap.look s.warps t.wk).map Warp.rq).getD []) t.lane).head?.map REntry.pc)
  | _, none => s

/-- Threads of one ordinary warp enter their handler at once: s61 and s62 are written for the first; a trap without a handler goes to
the supervisor (R225). -/
def State.enterWarp (s : State) (wk : Nat) (rs : List TrapReq) : State :=
  let rq := ((SMap.look s.warps wk).map Warp.rq).getD []
  let sup := rs.filter (fun r => (s.handlerOf r.th).isNone)
  let hnd := rs.filter (fun r => (s.handlerOf r.th).isSome)
  let s1 := sup.foldl (fun s r => s.supervisor r (rq.head?.map REntry.pc)) s
  match hnd with
  | [] => s1
  | r :: _ =>
    let first := match r.entry with | some i => i | none => Config.trapFirst r.code r.info r.rpc rq.length
    let s2 := (s1.sset wk 61 (s61Word r.code rq.length first)).sset wk 62 r.info
    hnd.foldl (fun s r => s.enterHandler r ((s.handlerOf r.th).getD 0)) s2

/-- The traps that threads of one ordinary warp raise at once: held while another thread of the warp is in handler state or waits to
enter it; else they enter the handler or go to the supervisor (R225). -/
def State.trapWarp (s : State) (wk : Nat) (rs : List TrapReq) : State :=
  match SMap.look s.warps wk with
  | none => s
  | some w =>
    if s.inHandler wk || !w.held.isEmpty then
      let sup := rs.filter (fun r => (s.handlerOf r.th).isNone)
      let hnd := rs.filter (fun r => (s.handlerOf r.th).isSome)
      (s.enterWarp wk sup).updWarp wk (fun w => { w with held := w.held ++ hnd })
    else s.enterWarp wk rs

/-- A thread out of its core's arrival list (R253). -/
def State.leaveArrivals (s : State) (th : Nat) : State :=
  let core := s.coreOfTh th
  if (s.coreOf core).arrivals.contains th then s.updCore core (fun c => { c with arrivals := c.arrivals.filter (· ≠ th) }) else s

/-- A thread stops where it stands: out of its group, its table entry or arrival list and its rendezvous. -/
def State.stopThread (s : State) (th : Nat) : State :=
  (((s.leaveGroup th).leaveArrivals th).leaveRdv th).updThread th (fun t => { t with stat := .held, inTable := false, rdvDone := false })

/-- The traps of one instruction or one event, delivered (R225, R293). -/
def State.deliver (s : State) (rs : List TrapReq) : State :=
  let s1 := rs.foldl (fun s r => s.stopThread r.th) s
  let wks := (rs.filterMap (fun r => (SMap.look s.threads r.th).map Thread.wk)).eraseDups
  wks.foldl (fun s wk =>
    let mine := rs.filter (fun r => ((SMap.look s.threads r.th).map Thread.wk) == some wk)
    if wk % 2 = 1 then mine.foldl State.trapTravel s else s.trapWarp wk mine) s1

/-! Issue (R32, R38, R75 to R82, R226). -/

/-- The launch limits of a thread (R39). -/
def limitsOf (g : Grid) (handler : Bool) : Limits := { nv := g.nv, ns := g.ns, travel := g.travel, handler := handler }

/-- The code word at an address, where the launch's section holds it (R30, R34). -/
def State.codeWord (s : State) (code : Nat) (a : W64) : Option W64 :=
  match SMap.look s.codes code with
  | some c => if a.toNat % 8 = 0 ∧ c.base.toNat ≤ a.toNat then c.words[(a.toNat - c.base.toNat) / 8]? else none
  | none => none

/-- The address of a group's next instruction word (R30). -/
def Group.pc (g : Group) : W64 := g.head + 8 + BitVec.ofNat 64 (8 * g.idx)

/-- COUNT of a group's header (R31). -/
def Group.count (g : Group) : Nat := (bits g.hword 52 4).toNat

/-- The address after a group's clause (R33). -/
def Group.nextHead (g : Group) : W64 := g.head + 8 + BitVec.ofNat 64 (8 * (g.count + 1))

/-- The address after the word a group stands at. -/
def Group.after (g : Group) : W64 := g.pc + 8

/-- Where a thread is stopped: at the instruction its group would issue next, or at the clause header while the header's waits are not
met or its group is not formed; a thread that stands at a trap it has not entered yet, at that trap's resume point (R427). -/
def State.stopPoint (s : State) (th : Nat) : W64 :=
  -- a parked access has its own entry, which RTR performs; the thread goes on after it (R147, R229)
  match SMap.look s.threads th with
  | some t =>
    match t.stat with
    | .extentMiss => t.parkPc
    | .grouped gid => ((SMap.look s.groups gid).map (fun g => if t.rdvDone then g.after else if g.waited then g.pc else g.head)).getD t.pc
    | .held => ((((SMap.look s.warps t.wk).map Warp.held).getD []).find? (fun r => r.th == th)).elim t.pc TrapReq.rpc
    | _ => t.pc
  | none => 0

/-- A held trap as its thread takes it: where an older trap's handler has let the thread go on, the thread stops where it stands now
(R225, R427). -/
def State.takeHeld (s : State) (r : TrapReq) : State × TrapReq :=
  match (SMap.look s.threads r.th).map Thread.stat with
  | some .held => (s, r)
  | _ => (s.stopThread r.th, { r with rpc := s.stopPoint r.th })

/-- A warp that has left handler state: the oldest held trap enters, with those raised with it (R225). -/
def State.releaseHeld (s : State) (wk : Nat) : State :=
  match SMap.look s.warps wk with
  | none => s
  | some w =>
    match w.held with
    | [] => s
    | r :: _ =>
      if s.inHandler wk then s
      else
        let same := fun (q : TrapReq) => q.code == r.code && q.info == r.info && q.entry == r.entry
        let s1 := s.updWarp wk (fun w => { w with held := w.held.filter (fun q => !same q) })
        let p := (w.held.filter same).foldl (fun (p : State × List TrapReq) q => let x := p.1.takeHeld q; (x.1, p.2 ++ [x.2])) (s1, [])
        p.1.enterWarp wk p.2

/-- Every warp looked at for a held trap that may enter now (R225). -/
def State.settleHeld (s : State) : State :=
  s.warps.foldl (fun s e => if e.2.held.isEmpty then s else s.releaseHeld e.1) s

/-- The warps present among threads, once each. -/
def State.warpsOf (s : State) (ths : List Nat) : List Nat :=
  (ths.filterMap (fun th => (SMap.look s.threads th).map Thread.wk)).eraseDups

/-- The warp of a thread. -/
def State.wkOf (s : State) (th : Nat) : Nat := ((SMap.look s.threads th).map Thread.wk).getD 0

/-- The lane of a thread: %tid mod 32 (R252). -/
def laneOfTh (th : Nat) : Nat := th % 32

/-- The first fault of a clause's words, with its word index (R50). -/
def checkWords (cls : ClauseClass) (n : Nat) (allows : Instr → Bool) : List (Option W64) → Nat → Option (DecodeFault × Nat)
  | [], _ => none
  | none :: _, _ => some (.clause, 0)
  | some w :: ws, k =>
    match checkWord cls (decide (k = n)) allows w with
    | .error e => some (e, k)
    | .ok _ => checkWords cls n allows ws (k + 1)

/-- Whether a clause of `n` words after its header at `a` crosses the end of its segment (R34). -/
def crossesSeg (g : Grid) (seg : Nat) (a : W64) (n : Nat) : Bool :=
  g.travel &&
    (match SMap.look g.segs seg with
     | some sg => decide (a.toNat < sg.base.toNat ∨ sg.base.toNat + sg.len < a.toNat + 8 * (n + 1))
     | none => true)

/-- A word that is treated as a clause header: its MARK is 0xC7 (R33). -/
def marked (w : W64) : Bool := decide (bits w 56 8 = 0xC7)

/-- The decode of a whole clause for threads of one kind: its header's word, or the fault and its word index, the rows of R49 in order: a
header without MARK and a clause past the end of its section or segment before its reserved bits (R33, R34, R49, R50). -/
def State.decodeClause (s : State) (g : Grid) (seg : Nat) (handler : Bool) (a : W64) : Except (DecodeFault × Nat) W64 :=
  match s.codeWord g.code a with
  | none => .error (.clause, 0)
  | some hw =>
    let n := (bits hw 52 4).toNat + 1
    let ws := (upFrom 1 n).map (fun k => s.codeWord g.code (a + BitVec.ofNat 64 (8 * k)))
    if !marked hw || ws.any Option.isNone || crossesSeg g seg a n then .error (.clause, 0)
    else match decodeHeader hw with
      | .error e => .error (e, 0)
      | .ok h =>
        match checkWords h.cls n (Instr.allowed (limitsOf g handler)) ws 1 with
        | some e => .error e
        | none => .ok hw

/-- The fault record of a decode fault at a clause: its header, the word index, and the transfer that led there (R50). -/
def State.decodeRec (s : State) (th : Nat) (a : W64) (k : Nat) : FaultRec :=
  { head := a, word := k, src := (SMap.look s.threads th).bind Thread.came, msg := none }

/-- A fetched word of the clause at `a` is uncorrectable (R368). -/
def State.clauseBad (s : State) (g : Grid) (a : W64) : Bool :=
  match SMap.look s.codes g.code, s.codeWord g.code a with
  | some c, some hw =>
    let i := (a.toNat - c.base.toNat) / 8
    (upFrom i ((bits hw 52 4).toNat + 2)).any (fun k => (SMap.look s.codeBad (g.code * 2 ^ 40 + k)).isSome)
  | _, _ => false

/-- Threads standing at one PC begin a clause as one group; those whose decode faults trap instead, with the clause header as
their resume point (R33, R50, R225, R254). -/
def State.beginClause (s : State) (core tk : Nat) (ths : List Nat) (a : W64) : State :=
  match s.gridOfTeam tk with
  | none => s
  | some g =>
    let verdict := fun th =>
      match SMap.look s.threads th with
      | some t =>
        if s.clauseBad g a then .error (0x10, 0)
        else match s.decodeClause g t.seg t.handler a with
          | .error (e, k) => .error (e.code, k)
          | .ok w => .ok w
      | none => .error (DecodeFault.clause.code, 0)
    let reqs := ths.filterMap (fun th =>
      match (verdict th : Except (Nat × Nat) W64) with
      | .error (e, k) => some { th := th, code := e, info := a + BitVec.ofNat 64 (8 * k), rpc := a, entry := none, rec_ := some (s.decodeRec th a k) }
      | .ok _ => none)
    let good := ths.filter (fun th => match verdict th with | .ok _ => true | .error _ => false)
    let n := s.newId
    let s1 := match good with
      | [] => s
      | th :: _ =>
        let hw := match verdict th with | .ok w => w | .error _ => 0
        let s2 : State := good.foldl (fun s th => s.updThread th (fun t =>
          { t with stat := .grouped n.1, inTable := false, pc := a, came := none })) n.2
        let ng : Group :=
          { core := core, team := tk, threads := good, head := a, hword := hw, idx := 0, waited := false, stall := .none,
            latch := [], sleepers := [], yielders := [], moved := [], parked := false, issued := false, turn := none }
        { s2 with groups := SMap.ins s2.groups n.1 ng }
    (s1.deliver reqs).pumpTable core

/-- The threads of a group whose guard is true, each once (R38). -/
def State.active (s : State) (g : Group) (i : Guard) : List Nat := g.threads.eraseDups.filter (fun th => s.guard th i)

/-- The guard of an instruction. -/
def Instr.guardOf (w : Option W64) : Guard := ((w.bind (fun w => Guard.ofCode (bits w 52 4)))).getD .always

/-- Every register an operand names, one at a time: lane registers, or scalar registers. -/
def opndRegs : Opnd → List Nat × List Nat
  | .v r => (if r = 255 then [] else [r.toNat], [])
  | .vp r => ([r.toNat, r.toNat + 1], [])
  | .vq r => (upFrom r.toNat 4, [])
  | .vr r n => (upFrom r.toNat n, [])
  | .s r => ([], if r = 63 then [] else [r.toNat])
  | .p _ => ([], [])

/-- The lane registers of a list of operands. -/
def laneRegs (os : List Opnd) : List Nat := (os.map (fun o => (opndRegs o).1)).flatten
/-- The scalar registers of a list of operands. -/
def scalarRegs (os : List Opnd) : List Nat := (os.map (fun o => (opndRegs o).2)).flatten

/-- Whether a register of some thread is listed in a map of lane registers. -/
def anyLane {β : Type} (m : SMap β) (ths rs : List Nat) : Bool :=
  ths.any (fun th => rs.any (fun r => (SMap.look m (vkey th r)).isSome))

/-- Whether a register of some warp is listed in a map of scalar registers. -/
def anyScalar {β : Type} (m : SMap β) (wks rs : List Nat) : Bool :=
  wks.any (fun wk => rs.any (fun r => (SMap.look m (skey wk r)).isSome))

/-- The header's waits for every warp present in the group (R32). -/
def State.waitsMet (s : State) (g : Group) : Bool :=
  match decodeHeader g.hword with
  | .error _ => true
  | .ok h =>
    (s.warpsOf g.threads).all (fun wk =>
      match SMap.look s.warps wk with
      | none => true
      | some w => ((h.waits.zip [0, 1, 2, 3, 4, 5]).all (fun p => p.1 == 7 || decide (w.count p.2 ≤ p.1.toNat))))

/-- The interlocks of R79 to R81 and R179 on an instruction's registers: why the group stalls, if it does. -/
def State.interlock (s : State) (sh : Shape) (act wks : List Nat) : Stall :=
  let rv := laneRegs sh.reads
  let wv := laneRegs sh.writes
  let rs := scalarRegs sh.reads
  let ws := scalarRegs sh.writes
  if anyLane s.vbusy act (rv ++ wv) then .register
  else if anyScalar s.sbusy wks (rs ++ ws) then .token
  else if anyLane s.vown act rv then .engineReg
  else if anyLane s.vread act wv then .engineReg
  else .none

/-- A trap of a form that makes no replay entry: the thread resumes at the form's own word (R225). -/
def trapAt (g : Group) (th code : Nat) : TrapReq := { th := th, code := code, info := g.pc, rpc := g.pc, entry := none }

/-- The threads that an armed scalar register among `rs` traps: every thread in the group of a warp that reads one (R172). -/
def State.armedTraps (s : State) (g : Group) (rs : List Nat) (wks : List Nat) : List TrapReq :=
  (g.threads.filterMap (fun th =>
    let wk := s.wkOf th
    if wks.contains wk then (rs.findSome? (fun r => SMap.look s.armed (skey wk r))).map (fun c => trapAt g th c)
    else none))

/-- Taking an armed register's trap clears its marks (R172). -/
def State.disarm (s : State) (rs : List Nat) (wks : List Nat) : State :=
  { s with armed := SMap.keep (fun k _ => !(wks.any (fun wk => rs.any (fun r => skey wk r == k)))) s.armed }

/-- A write of an engine-owned register raises ENGINE_REG before it takes effect (R81). -/
def State.engineRegTraps (s : State) (g : Group) (sh : Shape) (act : List Nat) : List TrapReq :=
  act.filterMap (fun th =>
    if (laneRegs sh.writes).any (fun r => (SMap.look s.vown (vkey th r)).isSome) then
      some (trapAt g th 0x0A)
    else none)

/-- A read of a register that holds an uncorrectable error raises DATA_ERROR precisely (R368). -/
def State.badRegTraps (s : State) (g : Group) (sh : Shape) (act : List Nat) : List TrapReq :=
  act.filterMap (fun th =>
    if (laneRegs sh.reads).any (fun r => (SMap.look s.vbad (vkey th r)).isSome)
        || (scalarRegs sh.reads).any (fun r => (SMap.look s.sbad (skey (s.wkOf th) r)).isSome) then
      some (trapAt g th 0x10)
    else none)

/-! The clause boundary (R75, R76, R104, R110, R214, R222). -/

/-- A thread owes a TIMER or a MSG_OVERFLOW at its next clause boundary (R104, R214). -/
def State.owes (s : State) (th : Nat) : Bool :=
  match SMap.look s.threads th with
  | none => false
  | some t => ((SMap.look (s.expireTimer t.wk).threads th).map Thread.timer).getD false || t.msgOvf

/-- MSG_OVERFLOW in a thread that resumes at `rpc` (R214): its fault record names the message dropped last. -/
def State.overflowTrap (s : State) (th : Nat) (rpc : W64) : TrapReq :=
  { th := th, code := 0x12, info := rpc, rpc := rpc, entry := none
    rec_ := some { head := rpc, word := 0, src := none, msg := (SMap.look s.teams (teamOfTh th)).bind Team.ovfBy } }

/-- A thread at a clause boundary: a TIMER or MSG_OVERFLOW it owes is raised, with the next header as resume point; else it
re-enters the bucket table (R104, R214, R225). -/
def State.atBoundary (s : State) (th : Nat) : State :=
  match SMap.look s.threads th with
  | none => s
  | some t =>
    let s0 := s.expireTimer t.wk
    if ((SMap.look s0.threads th).map Thread.timer).getD false then
      (s0.updThread th (fun t => { t with timer := false })).deliver
        [{ th := th, code := 0x0E, info := t.pc, rpc := t.pc, entry := none }]
    else if t.msgOvf then
      (s0.updThread th (fun t => { t with msgOvf := false })).deliver [s0.overflowTrap th t.pc]
    else s0.placeReady th

/-- A thread that has issued SLEEP at the end of its clause (R222): a trap it owes is taken first, and the SLEEP stands until the handler
returns; a team's event flag that is set is cleared and the thread goes on; else it parks. DEDUCED (log 61): of several sleepers of one
clause end only the first finds the flag set. -/
def State.goSleep (s : State) (th : Nat) (limit : W32) : State :=
  match SMap.look s.teams (teamOfTh th) with
  | none => s
  | some t =>
    if s.owes th then (s.updThread th (fun x => { x with slp := some limit })).atBoundary th
    else if t.flag then (s.updTeam (teamOfTh th) (fun t => { t with flag := false })).atBoundary th
    else s.updThread th (fun x => { x with stat := .asleep, sleepEnd := if limit = 0 then none else some limit,
                                           sleepAt := x.sleepAt })

/-- A thread that goes on at a clause header after it left a clause: a SLEEP of that clause takes effect now (R222, R229). -/
def State.resumeHeader (s : State) (th : Nat) : State :=
  match (SMap.look s.threads th).bind Thread.slp with
  | some limit => (s.updThread th (fun t => { t with slp := none, yld := false })).goSleep th limit
  | none => (s.updThread th (fun t => { t with yld := false })).atBoundary th

/-- Every result a group has outstanding has returned (R31, R76): no counter entry names a lane of its threads, no load is still to write
a register of theirs or a scalar register of a form they issued, and no engine owns a register of theirs. Pending tokens do not count. -/
def State.quiet (s : State) (g : Group) : Bool :=
  (s.warpsOf g.threads).all (fun wk => ((SMap.look s.warps wk).map (fun w => w.entries.all (fun e =>
      g.threads.all (fun th => s.wkOf th != wk || !laneBit e.left (laneOfTh th))))).getD true)
  && !(s.ops.any (fun e => e.2.sdst && e.2.ths.any g.threads.contains))
  && g.threads.all (fun th => !(s.vbusy.any (fun e => e.1 / 256 == th && (SMap.look s.ops e.2).isSome)) && !(s.vown.any (fun e => e.1 / 256 == th)))

/-- The group's threads go on past the boundary: with KEEP those at the next PC of its lowest-lane thread as one group, the
others to the bucket table; without, all of them to the table (R76). -/
def State.regroup (s : State) (gid : Nat) (g : Group) (rest : List Nat) : State :=
  let s0 := { s with groups := SMap.del s.groups gid }
  let free := fun (s : State) th => s.updThread th (fun t => { t with stat := .ready })
  if bit g.hword 48 then
    match rest with
    | [] => s0
    | th0 :: _ =>
      let pc0 := ((SMap.look s0.threads th0).map Thread.pc).getD 0
      let same := rest.filter (fun th => ((SMap.look s0.threads th).map Thread.pc) == some pc0)
      let keepers := same.filter (fun th => !s0.owes th)
      let others := rest.filter (fun th => !keepers.contains th)
      let s1 := others.foldl (fun s th => (free s th).atBoundary th) s0
      if keepers.isEmpty then s1 else s1.beginClause g.core g.team keepers pc0
  else rest.foldl (fun s th => (free s th).atBoundary th) s0

/-- A group past its clause and its park: threads that issued SLEEP park, those that issued YIELD re-enter the table with their age at
zero, and the others go on as after an ordinary clause (R76, R110, R222). -/
def State.leavePark (s : State) (gid : Nat) (g : Group) : State :=
  let slps := g.sleepers.filter (fun p => g.threads.contains p.1)
  let ylds := g.threads.filter (fun th => g.yielders.contains th && !slps.any (fun p => p.1 == th))
  let rest := g.threads.filter (fun th => !ylds.contains th && !slps.any (fun p => p.1 == th))
  ylds.foldl (fun s th => s.atBoundary th) (slps.foldl (fun s p => s.goSleep p.1 p.2) (s.regroup gid g rest))

/-- The end of a clause: every thread that no transfer moved stands at the next header; a header YIELD parks the group until it is quiet,
and YIELD its threads; the others go on (R75, R76, R110, R222). -/
def State.endClause (s : State) (gid : Nat) (g : Group) : State :=
  let s1 := g.threads.foldl (fun s th =>
    if g.moved.contains th then s else s.updThread th (fun t => { t with pc := g.nextHead })) s
  let ylds := g.threads.filter g.yielders.contains
  let park := fun (s : State) (k : Nat) (h : Group) =>
    h.threads.foldl (fun (s : State) th => s.updThread th (fun t => { t with stat := .yielding k }))
      { s with groups := SMap.ins s.groups k { h with parked := true, latch := [] } }
  if g.threads.isEmpty then { s1 with groups := SMap.del s1.groups gid }
  else if bit g.hword 49 then (if s1.quiet g then s1.leavePark gid g else park s1 gid g)
  else if ylds.isEmpty || s1.quiet { g with threads := ylds } then s1.leavePark gid g
  else
    let n := s1.newId
    park (n.2.leavePark gid { g with threads := g.threads.filter (fun th => !ylds.contains th) }) n.1 { g with threads := ylds }

/-- Parked groups that have become quiet go on (R76). -/
def State.settle (s : State) : State :=
  s.groups.foldl (fun s e =>
    match SMap.look s.groups e.1 with
    | some g => if g.parked && s.quiet g then s.leavePark e.1 g else s
    | none => s) s

/-- The instruction is done: the next word of the clause is next, or the clause ends (R75). -/
def State.advance (s : State) (gid : Nat) : State :=
  match SMap.look s.groups gid with
  | none => s
  | some g =>
    if g.threads.isEmpty then { s with groups := SMap.del s.groups gid }
    else if g.idx < g.count then s.updGroup gid (fun g => { g with idx := g.idx + 1, stall := .none, issued := false })
    else s.endClause gid { g with stall := .none }

/-- The group waits at its instruction (R75). -/
def State.stallAt (s : State) (gid : Nat) (w : Stall) : State := s.updGroup gid (fun g => { g with stall := w })

end Sys2Proof.Machine
end

