-- ==== Sys2Proof/Machine/Issue.lean ====
section
/-!
DEFINITION. The skeleton by which every instruction issues: what stands before its effect (the header's waits, the limit of the
replay queue, interlocks, armed and engine-owned registers), and what follows it (traps delivered, the group moves on)
(R32, R38, R75, R79 to R82, R172, R226).
-/
namespace Sys2Proof.Machine

/-- A rendezvous form (R89, R112, R137, R153, R170). -/
def isRendezvous : Instr → Bool
  | .vrdlane _ | .vwrlane _ | .ballot _ | .join _ | .vshfl _ | .vmbcnt _ | .vcvtmx _ => true
  | .stcmp _ | .ldexp _ | .fld _ | .fst _ => true
  | .vcvt8 f => f.ef
  | _ => false

/-- A form that R226 holds back while the replay queue could overflow: memory, atomic, engine and rendezvous forms. -/
def isLimited (i : Instr) : Bool :=
  isRendezvous i ||
    (match i.op with
     | some o => opKind o.toNat == .memory || opKind o.toNat == .engine
     | none => false)

/-- The registers an instruction's issue waits for: all it names, but that TPOLL tests its token without stalling (R173). -/
def lockShape (i : Instr) : Shape :=
  match i with
  | .tpoll f => ⟨[], [.s f.d]⟩
  | _ => i.shape

/-- FLD and FST act on the registers of every lane, whatever its guard (R170). -/
def wholeWarp : Instr → Bool
  | .fld _ | .fst _ => true
  | _ => false

/-- The scalar registers whose reading or naming an armed mark traps (R172): those an instruction reads, and an engine form's token. -/
def armedRegs (i : Instr) : List Nat :=
  scalarRegs (match i with
    | .mma f => .s f.t :: i.shape.reads
    | .cpyin f | .cpyst f | .cpyx f | .cpyg f | .cpyr f => .s f.t :: i.shape.reads
    | _ => i.shape.reads)

/-- The registers whose engine-owned marks an issue looks at: of VWRLANE only lane k's register is written, which its completion looks at
(R81, R99). -/
def ownShape (i : Instr) : Shape :=
  match i with
  | .vwrlane _ => ⟨[], []⟩
  | _ => lockShape i

/-- The registers whose errors an issue looks at: FST reads its fragment registers at its completion (R38, R170, R368). -/
def badShape (i : Instr) : Shape :=
  match i with
  | .fst f => ⟨[.s f.p], []⟩
  | _ => i.shape

/-! Reuse latches (R82). -/

/-- The operand slots whose reuse bit an instruction sets. -/
def reuseBits : Instr → List Nat
  | .vadd f | .vsub f | .vmul f | .vmulh f | .vmad f | .vmin f | .vmax f | .vabsd f | .vand f | .vor f | .vxor f
  | .vshl f | .vshr f | .vbfx f | .vbfi f | .vclz f | .vpopc f | .vaddc f | .vdot4 f | .vperm f | .vshfl f | .vmbcnt f
  | .vcmp f | .vsel f | .vmov f | .vfadd f | .vfsub f | .vfmul f | .vfma f | .vfmin f | .vfmax f | .vfsgn f | .vfcmp f
  | .vfclass f | .vfrnd f | .vfldx f | .vfdiv f | .vfsqrt f | .vfrcp f | .vfrsq f | .vfexp2 f | .vflog2 f | .vftanh f
  | .vfsigm f | .vcvt f | .vcvt8 f | .vcvtmx f =>
    (if f.ra then [0] else []) ++ (if f.rb then [1] else []) ++ (if f.rc then [2] else [])
  | _ => []

/-- The operand an instruction reads in a slot: VMOV's broadcast is its operand B. -/
def slotOpnd (i : Instr) (k : Nat) : Option Opnd :=
  match i with
  | .vmov _ => i.shape.reads[0]?
  | _ => i.shape.reads[k]?

/-- The slots and operands whose latches an instruction uses and sets. -/
def reuseOpnds (i : Instr) : List (Nat × Opnd) := (reuseBits i).filterMap (fun k => (slotOpnd i k).map (fun o => (k, o)))

/-- The keys of an operand's registers: of each thread, or of each warp for a scalar one. -/
def opndKeys (o : Opnd) (ths wks : List Nat) : List Nat :=
  match o with
  | .p r => ths.map (fun th => pkey th r.toNat)
  | .s _ => wks.flatMap (fun wk => (opndRegs o).2.map (skey wk))
  | _ => ths.flatMap (fun th => (opndRegs o).1.map (vkey th))

/-- What the register file holds under a key of an operand's kind. -/
def State.fileGet (s : State) (o : Opnd) (k : Nat) : Nat :=
  match o with
  | .p _ => (SMap.read false s.pr k).toNat
  | .s _ => (SMap.read 0 s.sr k).toNat
  | _ => (SMap.read 0 s.v k).toNat

/-- A value read in place of what the register file holds under a key. -/
def State.fileUse (s : State) (o : Opnd) (k x : Nat) : State :=
  match o with
  | .p _ => { s with pr := SMap.write false s.pr k (decide (x = 1)) }
  | .s _ => { s with sr := SMap.write 0 s.sr k (BitVec.ofNat 64 x) }
  | _ => { s with v := SMap.write 0 s.v k (BitVec.ofNat 32 x) }

/-- Whether an instruction writes a register of an operand. -/
def writesOpnd (i : Instr) (o : Opnd) : Bool :=
  match o with
  | .p r => i.shape.writes.any (fun w => match w with | .p q => q == r | _ => false)
  | _ => (opndRegs o).1.any (laneRegs i.shape.writes).contains || (opndRegs o).2.any (scalarRegs i.shape.writes).contains

/-- The latches an instruction leaves (R82): what it read for each operand with a set reuse bit, but for registers it writes. -/
def State.latches (s : State) (i : Instr) (g : Group) : List Latch :=
  ((reuseOpnds i).filter (fun p => !writesOpnd i p.2)).map (fun p =>
    { slot := p.1, opnd := p.2, vals := (opndKeys p.2 g.threads (s.warpsOf g.threads)).map (fun k => (k, s.fileGet p.2 k)) })

/-- The latches of a group that an instruction uses: the same slot, the same register (R82). -/
def usedLatches (g : Group) (i : Instr) : List Latch := g.latch.filter (fun l => (reuseOpnds i).contains (l.slot, l.opnd))

/-- Every latch that an instruction uses holds what the register file holds. -/
def State.latched (s : State) (i : Instr) (g : Group) : Bool :=
  (usedLatches g i).all (fun l => l.vals.all (fun e => decide (s.fileGet l.opnd e.1 = e.2)))

/-- The state as an instruction reads it: its latches in place of the register file (R82). -/
def State.useLatches (s : State) (i : Instr) (g : Group) : State :=
  if s.latched i g then s
  else (usedLatches g i).foldl (fun s l => l.vals.foldl (fun s e => s.fileUse l.opnd e.1 e.2) s) s

/-- The register file after an instruction that read latches: what it held before, but for what the threads and warps that act wrote. -/
def State.dropLatches (t s : State) (i : Instr) (g : Group) (ths wks : List Nat) : State :=
  if s.latched i g then t
  else (usedLatches g i).foldl (fun t l => l.vals.foldl (fun t e =>
    if writesOpnd i l.opnd && (opndKeys l.opnd ths wks).contains e.1 then t else t.fileUse l.opnd e.1 (s.fileGet l.opnd e.1)) t) t

/-- The count R226 keeps for a warp: its replay entries, its operations not complete, its store-queue entries, its engine operations. -/
def State.replayLoad (s : State) (wk : Nat) : Nat :=
  ((SMap.look s.warps wk).map (fun w => w.rq.length)).getD 0 + s.warpOps wk + (s.eng.filter (fun e => e.2.wk == wk)).length

/-- R226: whether a limited form may not issue yet. -/
def State.overLimit (s : State) (g : Group) : Bool :=
  g.threads.any (fun th =>
    match SMap.look s.threads th with
    | some t => decide ((if t.handler then 32 else 28) ≤ s.replayLoad t.wk)
    | none => false)

/-- What an issue acts on: the group, its threads that no gate trap stops, the active ones, the warps that have an active one. -/
structure Go where
  gid : Nat
  g   : Group
  ths : List Nat
  act : List Nat
  wks : List Nat
  deriving DecidableEq, Repr

/-- What stands before an instruction's effect. -/
inductive Gate where
  /-- No group issues. -/
  | none
  /-- The group waits. -/
  | stall (gid : Nat) (w : Stall)
  /-- The instruction takes effect in `x`; `traps` stop other threads of the group first. -/
  | go (x : Go) (traps : List TrapReq)
  deriving DecidableEq, Repr

/-- A trap of a form that makes no replay entry: s62 is to hold a memory form's formed address, and any other form's own address (R225). -/
def State.trapOf (s : State) (i : Instr) (g : Group) (th code : Nat) : TrapReq :=
  { trapAt g th code with info := (s.formed i (s.wkOf th) th).getD g.pc }

/-- A load of any form (R156). -/
def isLoad : Instr → Bool
  | .ld _ | .sld _ | .lds _ | .ldx _ | .ldexp _ | .fld _ => true
  | _ => false

/-- A LINV of a warp is not complete (R156). -/
def State.linvPending (s : State) (wk : Nat) : Bool := s.ops.any (fun e => e.2.wk == wk && e.2.kind == .linv)

/-- The gate of an instruction (R32, R79 to R81, R172, R226); threads that have taken the instruction's effect and wait for others of
their group pass it. DESIGN CHOICE: a form that reads and writes engine-owned registers waits first and has its ENGINE_REG check
after (R81, R114, assumption 143). -/
def gate (i : Instr) (gd : Guard) (s : State) : Gate :=
  match s.cur.bind (fun gid => (SMap.look s.groups gid).map (fun g => (gid, g))) with
  | none => .none
  | some (gid, g) =>
    let act := s.active g gd
    -- the members of a rendezvous have joined, and the group waits for their instances (R96)
    if g.issued && isRendezvous i then .go { gid := gid, g := g, ths := g.threads, act := act, wks := s.warpsOf act } []
    else
    let served := fun th => ((SMap.look s.threads th).map Thread.rdvDone).getD false
    let rest := act.filter (fun th => !served th)
    let wks := s.warpsOf rest
    let sh := lockShape i
    let fresh := g.threads.filter (fun th => !served th)
    let whole := if wholeWarp i then fresh else rest
    -- every member of a rendezvous reads its mask and its scalar operands, whatever its guard (R96, R242)
    let lock := s.interlock sh whole (if isRendezvous i then s.warpsOf fresh else wks)
    if !g.waited && !s.waitsMet g then .stall gid .counterWait
    else if isLimited i && s.overLimit g then .stall gid .limit
    else if isLoad i && wks.any s.linvPending then .stall gid .order
    else if lock ≠ .none then .stall gid lock
    else
      let t1 := s.armedTraps g (armedRegs i) wks
      let t2 := (s.engineRegTraps g (ownShape i) whole).filter (fun r => !t1.any (fun q => q.th == r.th))
      let t3 := (s.badRegTraps g (badShape i) whole).filter (fun r => !(t1 ++ t2).any (fun q => q.th == r.th))
      let ok := fun th => !(t1 ++ t2 ++ t3).any (fun q => q.th == th)
      let act' := act.filter ok
      .go { gid := gid, g := g, ths := g.threads.filter ok, act := act', wks := s.warpsOf act' } ((t1 ++ t2 ++ t3).map (fun r => s.trapOf i g r.th r.code))

/-- The effect of an instruction past its gate. -/
inductive Eff where
  /-- The group waits, and nothing changes. -/
  | stall (w : Stall)
  /-- The state changes and the group waits at the instruction; the gate's traps are taken. -/
  | wait (s : State) (w : Stall)
  /-- The effect is made; `traps` are the threads it traps. -/
  | done (s : State) (traps : List TrapReq)
  deriving DecidableEq, Repr

/-- The team of a group has issued an instruction (R264), and its core's cycle is issue-active (R376). -/
def State.noteIssue (s : State) (gid : Nat) : State :=
  match SMap.look s.groups gid with
  | some g =>
    let n := s.clusCyc (g.core / 4)
    (s.begun g.team).updCore g.core (fun c => if c.issAt = some n then c else { c with issAt := some n, act := c.act + 1 })
  | none => s

/-- After an effect: the traps are delivered and the group moves on (R75). -/
def State.finish (s : State) (gid : Nat) (latch : List Latch) (traps : List TrapReq) : State :=
  ((((s.noteIssue gid).updGroup gid (fun g => { g with waited := true, latch := if traps.isEmpty then latch else [] })).deliver traps)).advance gid

/-- An instruction issues (R75). -/
def issue (i : Instr) (gd : Guard) (s : State) (eff : Go → State → Eff) : Host.Outcome State Fault Refusal :=
  match gate i gd s with
  | .none => .fault .noIssuingGroup
  | .stall gid w => .next (s.stallAt gid w)
  | .go x traps =>
    match eff x ((s.disarm (armedRegs i) (if traps.isEmpty then [] else s.warpsOf (traps.map TrapReq.th))).useLatches i x.g) with
    | .stall w => .next (s.stallAt x.gid w)
    | .wait s1 w =>
      .next ((((((s1.dropLatches s i x.g x.act x.wks).noteIssue x.gid).updGroup x.gid (fun g =>
        { g with waited := true, issued := isRendezvous i })).deliver traps)).stallAt x.gid w)
    | .done s1 more => .next ((s1.dropLatches s i x.g x.act x.wks).finish x.gid (s.latches i x.g) (traps ++ more))

/-- A per-thread form with no trap of its own (R38). -/
def perThread (i : Instr) (gd : Guard) (s : State) (eff : Nat → Nat → State → State) : Host.Outcome State Fault Refusal :=
  issue i gd s (fun x s => .done (x.act.foldl (fun s th => eff (s.wkOf th) th s) s) [])

/-- A per-warp form with no trap of its own (R38, R83). -/
def perWarp (i : Instr) (gd : Guard) (s : State) (eff : Nat → State → State) : Host.Outcome State Fault Refusal :=
  issue i gd s (fun x s => .done (x.wks.foldl (fun s wk => eff wk s) s) [])

/-- A form that raises one trap in every active thread, before any effect (R105, R164, R194, R197, R233). -/
def trapAll (i : Instr) (gd : Guard) (s : State) (code : Nat) : Host.Outcome State Fault Refusal :=
  issue i gd s (fun x s => .done s (x.act.map (fun th => s.trapOf i x.g th code)))

/-- The context of the issuing group. -/
def State.curCtx (s : State) : Ctx :=
  match s.cur.bind (fun gid => SMap.look s.groups gid) with
  | some g => s.ctxOfTeam g.team
  | none => {}

/-- The address of the word the issuing group stands at. -/
def State.curPc (s : State) : W64 :=
  match s.cur.bind (fun gid => SMap.look s.groups gid) with
  | some g => g.pc
  | none => 0

/-! Warp rendezvous (R96, R97). -/

/-- What one member contributes. -/
structure Contrib where
  a : W64 := 0
  b : W64 := 0
  c : W64 := 0
  p : Bool := false

/-- A form whose completion takes a store-queue entry (R153, R170). -/
def needsQueue : Instr → Bool
  | .stcmp _ | .fst _ => true
  | _ => false

/-- The members of an instance that joined with a true guard, in ascending lane order. -/
def Rdv.actors (r : Rdv) : List RMember :=
  (List.range 32).filterMap (fun l => r.members.find? (fun m => m.lane == l && m.act))

/-- The member of the lowest joined lane, whose group's issue gives the scalar operands (R96 rule 6). -/
def Rdv.lowest (r : Rdv) : Option RMember := (List.range 32).findSome? (fun l => r.members.find? (fun m => m.lane == l))

/-- The lane k of VRDLANE and VWRLANE (R99). -/
def xferLane (f : Sr) (m : RMember) : Nat := if f.bit8 then f.lane else m.sc.toNat % 32

/-- The threads whose lane registers a completion writes: its actors; of VWRLANE the one in lane k; of FLD and FST every member
(R96, R99, R170). -/
def Rdv.writers (r : Rdv) : List Nat :=
  match r.instr with
  | .vwrlane f => (r.lowest.bind (fun m => r.actors.find? (fun x => x.lane == xferLane f m))).toList.map RMember.th
  | .fld _ | .fst _ => r.members.map RMember.th
  | _ => r.actors.map RMember.th

/-- The registers a completion touches: those it writes, and FST's fragment registers. -/
def Rdv.touches (r : Rdv) : Shape :=
  match r.instr with
  | .fst f => ⟨[.vr f.x (fragRegs f.emod)], []⟩
  | i => ⟨[], i.shape.writes⟩

/-- Every lane of the mask has joined, or holds a thread that has issued EXIT (R96 rule 3, R109); STCMP and FST find room in the store
queue (R150); and no register that the completion touches waits for another operation (R79 to R81). -/
def State.rdvComplete (s : State) (r : Rdv) : Bool :=
  !(needsQueue r.instr && decide (32 ≤ (s.ops.filter (fun e => e.2.wk == r.wk && e.2.kind == .store)).length)) &&
  (List.range 32).all (fun l => !laneBit r.mask l || r.members.any (fun m => m.lane == l)
    || !(s.threads.any (fun e => e.2.wk == r.wk && e.2.lane == l && e.2.stat != .exited && !e.2.left))) &&
  s.interlock r.touches r.writers (if r.actors.isEmpty then [] else [r.wk]) == .none

/-- The members whose write of an engine-owned register raises ENGINE_REG before the completion (R81). -/
def State.rdvTraps (s : State) (r : Rdv) : List TrapReq :=
  r.writers.filterMap (fun th =>
    if (laneRegs r.touches.writes).any (fun k => (SMap.look s.vown (vkey th k)).isSome) then
      some { th := th, code := 0x0A, info := (s.formed r.instr r.wk th).getD r.pc, rpc := r.pc, entry := none }
    else none)

/-- One thread joins the oldest incomplete instance of its key that it has not joined, or a new one (R96 rules 1 and 2). Answers
the instance and whether it is new. -/
def State.joinRdv (s : State) (wk : Nat) (pc : W64) (mask : W32) (i : Instr) (m : RMember) : State × Nat × Bool :=
  match SMap.find (fun _ r => r.wk == wk && r.pc == pc && r.mask == mask && !r.members.any (fun x => x.th == m.th)) s.rdvs with
  | some (id, r) =>
    (({ s with rdvs := SMap.ins s.rdvs id { r with members := r.members ++ [m] } }).updThread m.th
      (fun t => { t with rdv := some id }), id, false)
  | none =>
    let n := s.newId
    (({ n.2 with rdvs := SMap.ins n.2.rdvs n.1 { wk := wk, pc := pc, mask := mask, instr := i, members := [m] } }).updThread m.th
      (fun t => { t with rdv := some n.1 }), n.1, true)

/-- Every member of an instance is released (R96 rule 4); one that parked at it goes on from its park. -/
def State.releaseRdv (s : State) (id : Nat) (r : Rdv) : State :=
  let s1 := { s with rdvs := SMap.del s.rdvs id }
  r.members.foldl (fun s m => s.updThread m.th (fun t =>
    { t with rdv := none, rdvDone := match t.stat with | .grouped _ => true | _ => false })) s1

/-- How a rendezvous form reads its operands and what it does at completion. -/
structure RdvForm where
  w        : Nat := 6
  mask     : State → Nat → W32
  contrib  : State → Nat → Nat → Contrib
  scalars  : State → Nat → W64 × W64
  opened   : State → Nat → Nat → State
  complete : State → Nat → Rdv → State × List TrapReq

/-- The members of a group that have not joined yet join, each its instance (R96 rules 1 and 2, rule 7). -/
def joinMembers (i : Instr) (x : Go) (f : RdvForm) (s : State) : State × List Nat :=
  x.ths.foldl (fun (p : State × List Nat) th =>
    let s := p.1
    match SMap.look s.threads th with
    | none => p
    | some t =>
      let m := f.mask s t.wk
      if t.rdv.isSome || t.rdvDone || !laneBit m t.lane then p
      else
        let act := x.act.contains th
        let c := if act then f.contrib s t.wk th else {}
        let sc := f.scalars s t.wk
        let j := s.joinRdv t.wk x.g.pc m i
          { th := th, lane := t.lane, act := act, a := c.a, b := c.b, c := c.c, p := c.p, sa := sc.1, sc := sc.2 }
        ((if j.2.2 then f.opened j.1 t.wk j.2.1 else j.1), if p.2.contains j.2.1 then p.2 else p.2 ++ [j.2.1])) (s, [])

/-- The instances just joined that are complete take effect and release their members (R96 rules 3 and 4), unless members trap first. -/
def completeJoined (f : RdvForm) (ids : List Nat) (s : State) : State × List TrapReq :=
  ids.foldl (fun (p : State × List TrapReq) id =>
    match SMap.look p.1.rdvs id with
    | some r =>
      if p.1.rdvComplete r then
        match p.1.rdvTraps r with
        | [] =>
          let c := f.complete p.1 id r
          (c.1.releaseRdv id r, p.2 ++ c.2)
        | ts => (p.1, p.2 ++ ts)
      else p
    | none => p) (s, [])

/-- Some member of the group would open an instance whose counter is full (R77, R96 rule 7). -/
def rdvFull (f : RdvForm) (x : Go) (s : State) : Bool :=
  decide (f.w ≤ 5) && x.ths.any (fun th =>
    match SMap.look s.threads th with
    | some t => t.rdv.isNone && !t.rdvDone && laneBit (f.mask s t.wk) t.lane
        && decide (15 ≤ ((SMap.look s.warps t.wk).map (fun w => w.count f.w)).getD 0)
        && !(s.rdvs.any (fun e => e.2.wk == t.wk && e.2.pc == x.g.pc && e.2.mask == f.mask s t.wk && !e.2.members.any (fun m => m.th == th)))
    | none => false)

/-- Some thread of a group waits for its instance. -/
def State.anyJoined (s : State) (ths : List Nat) : Bool := ths.any (fun th => ((SMap.look s.threads th).bind Thread.rdv).isSome)

/-- The marks of released members are gone as their group goes on. -/
def State.clearServed (s : State) (ths : List Nat) : State :=
  ths.foldl (fun s th => s.updThread th (fun t => { t with rdvDone := false })) s

/-- A warp rendezvous issues (R96): its members join once, complete instances take effect, and the group waits while a member of it
still waits. -/
def rendezvous (i : Instr) (gd : Guard) (s : State) (f : RdvForm) : Host.Outcome State Fault Refusal :=
  issue i gd s (fun x s =>
    if x.g.issued then (if s.anyJoined x.ths then .stall .join else .done (s.clearServed x.ths) [])
    else if rdvFull f x s then .stall .counterFull
    else
      let j := joinMembers i x f s
      let c := completeJoined f j.2 j.1
      let trapped := c.2.map TrapReq.th
      if c.1.anyJoined (x.ths.filter (fun th => !trapped.contains th)) then .wait (c.1.deliver c.2) .join
      else .done (c.1.clearServed x.ths) c.2)

end Sys2Proof.Machine
end

