-- ==== Sys2Proof/Machine/Scalar.lean ====
section
/-!
DEFINITION. The scalar, lane-transfer and special-register forms, opcodes 0x00 to 0x1E (R48, R89 to R105).
-/
namespace Sys2Proof.Machine

/-- The width of a scalar form's type (R90). -/
def tyW (t : Ty) : Nat := if t.is64 then 64 else 32

/-- The extension of a w-bit result into a scalar register (R90): signed 32-bit types sign-extend, others zero-extend. -/
def extendTo (t : Ty) (x : Nat) : W64 :=
  if t = .s32 then BitVec.ofNat 64 (wrapTo 64 (intOf true 32 x)) else BitVec.ofNat 64 (x % 2 ^ tyW t)

/-- A scalar source at its type's width (R90). -/
def State.sop (s : State) (wk : Nat) (t : Ty) (r : RegField) : Nat := (s.sget wk r.toNat).toNat % 2 ^ tyW t

/-- The shape of every register form of R91: op on the three sources, extended into D. -/
def scalarForm (i : Instr) (f : Sr) (s : State) (op : State → Nat → Nat → Nat → Nat → Nat) :
    Host.Outcome State Fault Refusal :=
  perWarp i f.g s (fun wk s =>
    s.sset wk f.d.toNat (extendTo f.ty (op s wk (s.sop wk f.ty f.a) (s.sop wk f.ty f.b) (s.sop wk f.ty f.c))))

/-- The shape of the counting forms of R91, whose result is zero-extended. -/
def scalarCount (i : Instr) (f : Sr) (s : State) (op : Nat → Nat → Nat) : Host.Outcome State Fault Refusal :=
  perWarp i f.g s (fun wk s => s.sset wk f.d.toNat (BitVec.ofNat 64 (op (s.sop wk f.ty f.a) (s.sop wk f.ty f.b))))

/-- NOP (R48): no effect. -/
def execNop (g : Guard) (s : State) : Host.Outcome State Fault Refusal := issue (.nop g) g s (fun _ s => .done s [])

/-- SADD (R91). -/
def execSadd (f : Sr) (s : State) : Host.Outcome State Fault Refusal :=
  scalarForm (.sadd f) f s (fun _ _ a b _ =>
    narrowInt f.ty.isSigned f.sat (tyW f.ty) (intOf f.ty.isSigned (tyW f.ty) a + intOf f.ty.isSigned (tyW f.ty) b))

/-- SSUB (R91). -/
def execSsub (f : Sr) (s : State) : Host.Outcome State Fault Refusal :=
  scalarForm (.ssub f) f s (fun _ _ a b _ =>
    narrowInt f.ty.isSigned f.sat (tyW f.ty) (intOf f.ty.isSigned (tyW f.ty) a - intOf f.ty.isSigned (tyW f.ty) b))

/-- SMUL (R91). -/
def execSmul (f : Sr) (s : State) : Host.Outcome State Fault Refusal :=
  scalarForm (.smul f) f s (fun _ _ a b _ =>
    narrowInt f.ty.isSigned f.sat (tyW f.ty) (intOf f.ty.isSigned (tyW f.ty) a * intOf f.ty.isSigned (tyW f.ty) b))

/-- SMULH (R52, R91). -/
def execSmulh (f : Sr) (s : State) : Host.Outcome State Fault Refusal :=
  scalarForm (.smulh f) f s (fun _ _ a b _ => mulHigh f.ty.isSigned (tyW f.ty) a b)

/-- SDIV (R52, R91): quotient, or remainder with REM. -/
def execSdiv (f : Sr) (s : State) : Host.Outcome State Fault Refusal :=
  scalarForm (.sdiv f) f s (fun _ _ a b _ =>
    let q := idiv f.ty.isSigned (tyW f.ty) a b
    if f.bit8 then q.2 else q.1)

/-- SMIN (R91). -/
def execSmin (f : Sr) (s : State) : Host.Outcome State Fault Refusal :=
  scalarForm (.smin f) f s (fun _ _ a b _ =>
    if intOf f.ty.isSigned (tyW f.ty) b < intOf f.ty.isSigned (tyW f.ty) a then b else a)

/-- SMAX (R91). -/
def execSmax (f : Sr) (s : State) : Host.Outcome State Fault Refusal :=
  scalarForm (.smax f) f s (fun _ _ a b _ =>
    if intOf f.ty.isSigned (tyW f.ty) a < intOf f.ty.isSigned (tyW f.ty) b then b else a)

/-- SAND (R91). -/
def execSand (f : Sr) (s : State) : Host.Outcome State Fault Refusal := scalarForm (.sand f) f s (fun _ _ a b _ => a &&& b)

/-- SOR (R91). -/
def execSor (f : Sr) (s : State) : Host.Outcome State Fault Refusal := scalarForm (.sor f) f s (fun _ _ a b _ => a ||| b)

/-- SXOR (R91). -/
def execSxor (f : Sr) (s : State) : Host.Outcome State Fault Refusal := scalarForm (.sxor f) f s (fun _ _ a b _ => a ^^^ b)

/-- SSHL (R91): the count is the whole unsigned 64-bit value of S[B]. -/
def execSshl (f : Sr) (s : State) : Host.Outcome State Fault Refusal :=
  scalarForm (.sshl f) f s (fun s wk a _ _ => shlW (tyW f.ty) a (s.sget wk f.b.toNat).toNat)

/-- SSHR (R91): arithmetic for s types. -/
def execSshr (f : Sr) (s : State) : Host.Outcome State Fault Refusal :=
  scalarForm (.sshr f) f s (fun s wk a _ _ =>
    let n := (s.sget wk f.b.toNat).toNat
    if f.ty.isSigned then shrA (tyW f.ty) a n else shrL (tyW f.ty) a n)

/-- SBFX (R92). -/
def execSbfx (f : Sr) (s : State) : Host.Outcome State Fault Refusal :=
  scalarForm (.sbfx f) f s (fun _ _ a b _ => bfx f.ty.isSigned (tyW f.ty) a b)

/-- SBFI (R92). -/
def execSbfi (f : Sr) (s : State) : Host.Outcome State Fault Refusal :=
  scalarForm (.sbfi f) f s (fun _ _ a b c => bfi (tyW f.ty) a b c)

/-- SCLZ (R91). -/
def execSclz (f : Sr) (s : State) : Host.Outcome State Fault Refusal :=
  scalarCount (.sclz f) f s (fun a _ => clz (tyW f.ty) a)

/-- SPOPC (R91). -/
def execSpopc (f : Sr) (s : State) : Host.Outcome State Fault Refusal :=
  scalarCount (.spopc f) f s (fun a _ => popc (tyW f.ty) a)

/-- SSET (R91). -/
def execSset (f : Sr) (s : State) : Host.Outcome State Fault Refusal :=
  scalarCount (.sset f) f s (fun a b =>
    (condInt f.cond (intOf f.ty.isSigned (tyW f.ty) a) (intOf f.ty.isSigned (tyW f.ty) b)).toNat)

/-- SSEL (R91): the choice looks at all 64 bits of S[C]. -/
def execSsel (f : Sr) (s : State) : Host.Outcome State Fault Refusal :=
  scalarForm (.ssel f) f s (fun s wk a b _ => if s.sget wk f.c.toNat ≠ 0 then a else b)

/-- SMOV (R91). -/
def execSmov (f : Sr) (s : State) : Host.Outcome State Fault Refusal := scalarForm (.smov f) f s (fun _ _ a _ _ => a)

/-- IMM32 extended by the type's signedness (R93). -/
def immExt (t : Ty) (imm : W32) : W64 := if t.isSigned then imm.signExtend 64 else imm.setWidth 64

/-- SMOVI (R93): sign-extended for s32 and s64, zero-extended otherwise. -/
def execSmovi (f : Im) (s : State) : Host.Outcome State Fault Refusal :=
  perWarp (.smovi f) f.g s (fun wk s => s.sset wk f.d.toNat (immExt f.ty f.imm))

/-- SMOVHI (R93). -/
def execSmovhi (f : Im) (s : State) : Host.Outcome State Fault Refusal :=
  perWarp (.smovhi f) f.g s (fun wk s => s.sset wk f.d.toNat (pair (lo32 (s.sget wk f.a.toNat)) f.imm))

/-- SADDI (R93). -/
def execSaddi (f : Im) (s : State) : Host.Outcome State Fault Refusal :=
  perWarp (.saddi f) f.g s (fun wk s =>
    s.sset wk f.d.toNat (extendTo f.ty (s.sget wk f.a.toNat + f.imm.signExtend 64).toNat))

/-- VRDLANE at completion (R99): the member's value in lane k, or 0. -/
def doneVrdlane (f : Sr) (s : State) (r : Rdv) : State :=
  match r.lowest with
  | none => s
  | some m =>
    if r.actors.isEmpty then s
    else match r.actors.find? (fun x => x.lane == xferLane f m) with
      | some x => s.sset r.wk f.d.toNat x.a
      | none => s.sset r.wk f.d.toNat 0

/-- VRDLANE (R99). -/
def execVrdlane (f : Sr) (s : State) : Host.Outcome State Fault Refusal :=
  rendezvous (.vrdlane f) f.g s
    { mask := fun s wk => lo32 (s.sget wk f.b.toNat)
      contrib := fun s _ th => { a := BitVec.ofNat 64 (s.lane th f.ty.is64 f.a) }
      scalars := fun s wk => (0, s.sget wk f.c.toNat)
      opened := fun s _ _ => s
      complete := fun s _ r => (doneVrdlane f s r, []) }

/-- VWRLANE at completion (R99): only lane k's register, and only when lane k joined with a true guard. -/
def doneVwrlane (f : Sr) (s : State) (r : Rdv) : State :=
  match r.lowest with
  | none => s
  | some m =>
    match r.actors.find? (fun x => x.lane == xferLane f m) with
    | some x => s.setLane x.th f.ty.is64 f.d (m.sa.toNat % 2 ^ tyW f.ty)
    | none => s

/-- VWRLANE (R99). -/
def execVwrlane (f : Sr) (s : State) : Host.Outcome State Fault Refusal :=
  rendezvous (.vwrlane f) f.g s
    { mask := fun s wk => lo32 (s.sget wk f.b.toNat)
      contrib := fun _ _ _ => {}
      scalars := fun s wk => (s.sget wk f.a.toNat, s.sget wk f.c.toNat)
      opened := fun s _ _ => s
      complete := fun s _ r => (doneVwrlane f s r, []) }

/-- The ballot of an instance: one bit for each member that joined with a true guard and holds the predicate (R98, R126). -/
def Rdv.ballot (r : Rdv) : W32 := maskOf ((r.actors.filter RMember.p).map RMember.lane)

/-- BALLOT at completion (R98). -/
def doneBallot (f : Sr) (s : State) (r : Rdv) : State :=
  if r.actors.isEmpty then s else s.sset r.wk f.d.toNat (r.ballot.setWidth 64)

/-- BALLOT (R98). -/
def execBallot (f : Sr) (s : State) : Host.Outcome State Fault Refusal :=
  rendezvous (.ballot f) f.g s
    { mask := fun s wk => lo32 (s.sget wk f.b.toNat)
      contrib := fun s _ th => { p := (s.pget th f.a.toNat) != f.bit8 }
      scalars := fun _ _ => (0, 0)
      opened := fun s _ _ => s
      complete := fun s _ r => (doneBallot f s r, []) }

/-- PFROM (R94). -/
def execPfrom (f : Sr) (s : State) : Host.Outcome State Fault Refusal :=
  perThread (.pfrom f) f.g s (fun wk th s =>
    s.pset th f.d.toNat
      (if f.bit8 then (s.sget wk f.a.toNat).getLsbD (laneOfTh th) else decide (s.lane th f.ty.is64 f.a ≠ 0)))

/-- PLOG (R95). -/
def execPlog (f : Sr) (s : State) : Host.Outcome State Fault Refusal :=
  perThread (.plog f) f.g s (fun _ th s =>
    let a := s.pget th f.a.toNat != f.mod.getLsbD 10
    let b := s.pget th f.b.toNat != f.mod.getLsbD 11
    s.pset th f.d.toNat
      (match f.plogOp with
       | 0 => a && b
       | 1 => a || b
       | _ => a != b))

/-! Special registers (R102 to R105). -/

/-- Nanoseconds since device reset (R265): 84 ticks each. -/
def State.wall (s : State) : Nat := (s.now - s.resetAt) / 84

/-- The value of a special register for a thread of a warp (R103, R105). -/
def State.special (s : State) (wk th sel : Nat) : W64 :=
  let tk := teamOfTh th
  match SMap.look s.teams tk, s.gridOfTeam tk with
  | some t, some g =>
    let c := (SMap.look s.ctxs g.ctx).getD {}
    let core := s.coreOfTh th
    let hide := fun (x : Nat) => if c.det then 0 else x
    BitVec.ofNat 64 (match sel with
      | 0x0 => laneOfTh th
      | 0x1 => tidOf th
      | 0x2 => 32 * g.warps
      | 0x3 => t.idx
      | 0x4 => g.nteam
      | 0x5 => tidOf th / 32
      | 0x6 => hide core
      | 0x7 => hide (core / 4)
      | 0x8 => t.idx % (max g.cg 1)
      | 0x9 => g.num.toNat
      | 0xA => g.depth
      | 0xB => ((SMap.look s.threads th).map Thread.seg).getD 0
      | 0xC => s.cycleOf tk
      | 0xD => s.wall
      | 0xE => (s.wtimerOf wk).toNat
      | 0xF => c.prio
      | 0x10 => hide (g.ctx / 8)
      | 0x11 => c.det.toNat
      | 0x12 => if c.det then 10 else s.levelOf (core / 4)
      | _ => hide (s.cluster (core / 4)).permits)
  | _, _ => 0

/-- The special registers that a DET context may not touch (R105). -/
def detSpecial (sel : Nat) : Bool := sel == 0xC || sel == 0xD || sel == 0xE

/-- SRD (R102, R103, R105): per warp into a scalar register, per thread into a lane register or pair. -/
def execSrd (f : Yf) (s : State) : Host.Outcome State Fault Refusal :=
  let sel := f.sel.toNat
  if s.curCtx.det && detSpecial sel then trapAll (.srd f) f.g s 0x11
  else if f.ymod.getLsbD 0 then
    issue (.srd f) f.g s (fun x s => .done (x.wks.foldl (fun s wk =>
      let th := (x.act.find? (fun th => s.wkOf th == wk)).getD 0
      s.sset wk f.d.toNat (s.special wk th sel)) s) [])
  else perThread (.srd f) f.g s (fun wk th s =>
    s.setLane th (sel == 0xC || sel == 0xD) f.d (s.special wk th sel).toNat)

/-- A write of %wtimer (R104): the new count replaces the old, and a TIMER that had not fired does not fire. -/
def State.setWtimer (s : State) (wk : Nat) (x : W32) : State :=
  s.updWarp wk (fun w => { w with wtimer := x, wtAt := s.teamCyc w.team })

/-- SWR (R102, R104, R105): of a lane source, the lowest active lane of the warp. -/
def execSwr (f : Yf) (s : State) : Host.Outcome State Fault Refusal :=
  if s.curCtx.det then trapAll (.swr f) f.g s 0x11
  else issue (.swr f) f.g s (fun x s => .done (x.wks.foldl (fun s wk =>
    let th := (x.act.find? (fun th => s.wkOf th == wk)).getD 0
    s.setWtimer wk (if f.ymod.getLsbD 0 then lo32 (s.sget wk f.a.toNat) else s.vget th f.a.toNat)) s) [])

end Sys2Proof.Machine
end

