-- ==== Sys2Proof/Machine/Control.lean ====
section
/-!
DEFINITION. Control transfers, departures, rejoin, EXIT and YIELD, opcodes 0x20 to 0x28 (R33, R34, R96, R100, R101, R106 to R110, R215,
R216).
-/
namespace Sys2Proof.Machine

/-- The segment of a travelling grid that holds an address (R283). -/
def Grid.segOf (g : Grid) (pc : W64) : Option Nat :=
  (SMap.find (fun _ sg => decide (sg.base.toNat ≤ pc.toNat ∧ pc.toNat < sg.base.toNat + sg.len)) g.segs).map Prod.fst

/-- The grid-wide index of a thread (R86, R216). -/
def State.gridIndex (s : State) (th : Nat) : Nat :=
  match SMap.look s.teams (teamOfTh th), s.gridOfTeam (teamOfTh th) with
  | some t, some g => t.idx * (32 * g.warps) + tidOf th
  | _, _ => 0

/-- The replica a departure picks (R216 step 3): by grid-wide index, or with LEAST the shortest arrival queue, lowest first. -/
def State.pickReplica (s : State) (sg : Seg) (th : Nat) (least : Bool) : Nat :=
  if least then
    (sg.cores.foldl (fun (best : Option (Nat × Nat)) c =>
      let n := (s.coreOf c).queue.length
      match best with
      | none => some (c, n)
      | some b => if n < b.2 then some (c, n) else some b) none).map Prod.fst |>.getD 0
  else (sg.cores[s.gridIndex th % (max sg.cores.length 1)]?).getD 0

/-- Everything a thread has stored or sent is performed at .pkg scope (R216 step 1). -/
def State.storesDone (s : State) (th : Nat) : Bool :=
  !(s.ops.any (fun e => (e.2.kind == .store || e.2.kind == .atomic || e.2.kind == .cas) && e.2.lanes.any (fun l => l.th == th)))
    && !(s.pend.any (fun e => e.2.th == th))

/-- A replay entry of a thread's slot names its lane (R293). -/
def State.entryHere (s : State) (th : Nat) : Bool :=
  match SMap.look s.threads th with
  | some t => ((SMap.look s.warps t.wk).map (fun w => w.rq.any (fun e => !e.halt && laneBit e.mask t.lane))).getD false
  | none => false

/-- A departure may leave: the registers it ships are written, its stores and atomics performed, and its replay entries freed (R216 step 1,
R293). -/
def State.mayDepart (s : State) (th : Nat) (mask : W32) : Bool :=
  s.storesDone th && !s.entryHere th && !((List.range 32).any (fun r => laneBit mask r && (SMap.look s.vbusy (vkey th r)).isSome))

/-- The parcel of a departing thread (R216 step 2, R217). -/
def State.parcelOf (s : State) (th : Nat) (pc : W64) (mask : W32) (seg dst : Nat) : Parcel :=
  { th := th, pc := pc, mask := mask, regs := ((List.range 32).filter (laneBit mask)).map (s.vget th),
    pred := BitVec.ofNat 7 ((List.range 7).foldl (fun n p => n + (if s.pget th p then 2 ^ p else 0)) 0),
    seg := seg, dst := dst, full := false, at_ := 0, wait := .none }

/-- A departing thread's outstanding loads are given up: the registers they would write are not shipped, and read zero (R216; assumption
134). -/
def State.cancelLoads (s : State) (th : Nat) : State :=
  s.ops.foldl (fun (s : State) e =>
    if e.2.kind == .load && e.2.lanes.any (fun l => l.th == th) then
      let rest := e.2.lanes.filter (fun l => l.th != th)
      let s1 := s.answer e.2.wk e.1 (if rest.isEmpty then 0xFFFFFFFF else maskOf [laneOfTh th])
      { s1 with ops := if rest.isEmpty then SMap.del s1.ops e.1 else SMap.ins s1.ops e.1 { e.2 with lanes := rest } }
    else s) s

/-- Every register that a departure does not ship reads zero from then on (R216); the token pair of a receive that stays posted is still to
be written (R292). -/
def State.dropRegs (s : State) (th : Nat) (mask : W32) : State :=
  let posted := s.cores.flatMap (fun c => c.2.posted.map Recv.op)
  (List.range 32).foldl (fun (s : State) r => if laneBit mask r then s else
    { s.vset th r 0 with vbusy := match SMap.look s.vbusy (vkey th r) with
        | some op => if posted.contains op then s.vbusy else SMap.del s.vbusy (vkey th r)
        | none => s.vbusy }) s

/-- A thread departs to the segment of its target (R216): its parcel is built, a replica picked, and it waits for a queue entry. -/
def State.depart (s : State) (th : Nat) (g : Grid) (seg : Nat) (pc : W64) (mask : W32) (least : Bool) : State :=
  match SMap.look g.segs seg with
  | none => s
  | some sg =>
    let p := s.parcelOf th pc mask seg (s.pickReplica sg th least)
    (((({ s with flying := s.flying ++ [p] }.cancelLoads th).dropRegs th mask)).leaveGroup th).updThread th
      (fun t => { t with stat := .parcel, inTable := false, pc := pc, departs := t.departs + 1, came := some s.curPc })

/-- A transfer of one thread to a target (R106): its PC moves, and its group's clause ends there. -/
def State.moveTo (s : State) (gid th : Nat) (pc : W64) : State :=
  (s.updThread th (fun t => { t with pc := pc, came := some s.curPc })).updGroup gid (fun g => { g with moved := g.moved ++ [th] })

/-- What a transfer needs of each thread: its target, its live mask if it departs, whether it links, LEAST. -/
structure Xfer where
  target : State → Nat → Nat → W64
  mask   : State → Nat → W32
  link   : Bool
  least  : Bool

/-- Where a thread's transfer leads (R34, R108, R215): within its segment or an ordinary grid, out to a segment, or nowhere. -/
inductive Dest where
  | here
  | away (seg : Nat)
  | nowhere
  deriving DecidableEq, Repr

/-- The destination of a target for a thread (R108, R293): a thread in handler state never departs. -/
def State.destOf (s : State) (g : Grid) (th : Nat) (pc : W64) : Dest :=
  if !g.travel then .here
  else
    let t := SMap.look s.threads th
    match g.segOf pc with
    | none => .nowhere
    | some seg => if seg = (t.map Thread.seg).getD 0 then .here
                  else if (t.map Thread.handler).getD false then .nowhere
                  else .away seg

/-- A control transfer (R106, R108, R216, R288): a departing thread leaves once it is ready, and the group waits for those that are not;
a target that no segment covers raises SEGMENT before the thread leaves. -/
def transfer (i : Instr) (gd : Guard) (s : State) (f : Xfer) : Host.Outcome State Fault Refusal :=
  issue i gd s (fun x s =>
    match s.gridOfTeam x.g.team with
    | none => .done s []
    | some g =>
      let tgt := fun th => f.target s (s.wkOf th) th
      let dest := fun th => s.destOf g th (tgt th)
      let stuck := x.act.filter (fun th => dest th == .nowhere)
      let go := x.act.filter (fun th => dest th != .nowhere)
      let away := go.filter (fun th => dest th != .here)
      let late := away.any (fun th => !s.mayDepart th (f.mask s th))
      let ths := if late then away.filter (fun th => s.mayDepart th (f.mask s th)) else go
      let s1 : State := if f.link then ths.foldl (fun s th => s.vsetp th 30 x.g.nextHead) s else s
      let s2 := ths.foldl (fun st th =>
        match dest th with
        | .away seg => st.depart th g seg (tgt th) (f.mask s th) f.least
        | _ => st.moveTo x.gid th (tgt th)) s1
      let ts := stuck.map (fun th => trapAt x.g th 0x14)
      if !late then .done s2 ts
      else if ths.isEmpty && stuck.isEmpty then .stall .depart
      else .wait (s2.deliver ts) .depart)

/-- OFF sign-extended (R40). -/
def Ct.offset (f : Ct) : W64 := f.off.signExtend 64

/-- Own address + OFF (R34). -/
def relTarget (f : Ct) (s : State) : W64 := s.curPc + Ct.offset f

/-- A register-based target: a scalar or a pair, plus OFF (R107). -/
def regTarget (f : Ct) (s : State) (wk th : Nat) : W64 :=
  (if f.cmod = 1 then s.sget wk f.a.toNat else s.vgetp th f.a.toNat) + Ct.offset f

/-- The live mask of an implicit departure: v0 to v31 (R216). -/
def allLive : State → Nat → W32 := fun _ _ => 0xFFFFFFFF

/-- BRA (R107). -/
def execBra (f : Ct) (s : State) : Host.Outcome State Fault Refusal :=
  transfer (.bra f) f.g s { target := fun s _ _ => relTarget f s, mask := allLive, link := false, least := false }

/-- BRX (R107). -/
def execBrx (f : Ct) (s : State) : Host.Outcome State Fault Refusal :=
  transfer (.brx f) f.g s { target := regTarget f, mask := allLive, link := false, least := false }

/-- CALL (R106, R107): the link is the next clause header. -/
def execCall (f : Ct) (s : State) : Host.Outcome State Fault Refusal :=
  transfer (.call f) f.g s { target := fun s _ _ => relTarget f s, mask := allLive, link := true, least := false }

/-- CALLX (R106, R107): the target is formed before the link is written. -/
def execCallx (f : Ct) (s : State) : Host.Outcome State Fault Refusal :=
  transfer (.callx f) f.g s { target := regTarget f, mask := allLive, link := true, least := false }

/-- RET (R107). -/
def execRet (f : Ct) (s : State) : Host.Outcome State Fault Refusal :=
  transfer (.ret f) f.g s { target := fun s _ th => s.vgetp th f.a.toNat, mask := allLive, link := false, least := false }

/-- MKJOIN (R100): every lane, or the enclosing mask. -/
def execMkjoin (f : Sr) (s : State) : Host.Outcome State Fault Refusal :=
  perWarp (.mkjoin f) f.g s (fun wk s =>
    s.sset wk f.d.toNat (if f.a = 63 then 0xFFFFFFFF else (lo32 (s.sget wk f.a.toNat)).setWidth 64))

/-- JOIN (R101): a rendezvous with no result. -/
def execJoin (f : Sr) (s : State) : Host.Outcome State Fault Refusal :=
  rendezvous (.join f) f.g s
    { mask := fun s wk => lo32 (s.sget wk f.a.toNat), contrib := fun _ _ _ => {}, scalars := fun _ _ => (0, 0)
      opened := fun s _ _ => s, complete := fun s _ _ => (s, []) }

/-- A thread has a global load or global atomic whose answer is outstanding (R109). -/
def State.awaitsAnswer (s : State) (th : Nat) : Bool :=
  s.ops.any (fun e =>
    ((e.2.kind == .load || e.2.kind == .atomic || e.2.kind == .cas) && !e.2.held
      && e.2.lanes.any (fun l => l.th == th && l.space == .glob))
    || ((e.2.kind == .xopen || e.2.kind == .xclose) && e.2.ths.contains th))

/-- A thread's share of every counter entry of its warp is removed (R78, R109). -/
def State.dropShare (s : State) (th : Nat) : State :=
  let cut := fun (e : CEntry) => { e with left := e.left &&& ~~~(1#32 <<< laneOfTh th) }
  s.updWarp (s.wkOf th) (fun w => { w with entries := releaseAll (w.entries.map cut) })

/-- The registers of a thread or warp that is freed read zero for what is placed next: they are no longer listed. -/
def State.clearThread (s : State) (th : Nat) : State :=
  { s with v := SMap.keep (fun k _ => decide (k / 256 ≠ th)) s.v, pr := SMap.keep (fun k _ => decide (k / 8 ≠ th)) s.pr }

/-- A thread has exited (R109, R198): it leaves every barrier's arrivals and counts as joined everywhere. -/
def State.exitThread (s : State) (th : Nat) : State :=
  s.updThread th (fun t => { t with stat := .exited, inTable := false, handler := false })

/-- EXIT (R109): each active thread counts as joined from here on; queued stores drain and issued atomics are performed; a thread whose global answer is
outstanding holds its slot
at the EXIT. -/
def execExit (f : Ct) (s : State) : Host.Outcome State Fault Refusal :=
  issue (.exit f) f.g s (fun x s =>
    .done (x.act.foldl (fun s th =>
      let s1 := ((s.leaveGroup th).dropShare th).updThread th (fun t => { t with left := true })
      if s1.awaitsAnswer th then s1.updThread th (fun t => { t with stat := .exiting, inTable := false, pc := x.g.pc })
      else s1.exitThread th) s) [])

/-- YIELD (R110): at the end of the clause the active threads park with the group and re-enter the table with their age at zero. -/
def execYield (f : Sr) (s : State) : Host.Outcome State Fault Refusal :=
  issue (.yield f) f.g s (fun x s => .done (s.updGroup x.gid (fun g => { g with yielders := g.yielders ++ x.act })) [])

end Sys2Proof.Machine
end

