-- ==== Sys2Proof/Machine/Vector.lean ====
section
/-!
DEFINITION. The integer and bit forms, compares, moves and lane shuffles, opcodes 0x40 to 0x5A (R112, R113, R117 to R126).
-/
namespace Sys2Proof.Machine

/-- The element width and count of a type (R51). -/
def tyElems : Ty → Nat × Nat
  | .s16x2 | .n16x2 | .f16x2 | .bf16x2 => (16, 2)
  | .s8x4 | .n8x4 => (8, 4)
  | t => (tyW t, 1)

/-- Element k of width w (R51). -/
def elem (w x k : Nat) : Nat := x / 2 ^ (w * k) % 2 ^ w

/-- Elements put together, element 0 lowest (R51). -/
def joinElems (w : Nat) : List Nat → Nat
  | [] => 0
  | x :: xs => x % 2 ^ w + 2 ^ w * joinElems w xs

/-- An operation on each element of three operands. -/
def perElem (t : Ty) (op : Nat → Nat → Nat → Nat) (a b c : Nat) : Nat :=
  let e := tyElems t
  joinElems e.1 ((List.range e.2).map (fun k => op (elem e.1 a k) (elem e.1 b k) (elem e.1 c k)))

/-- The shape of the VR forms of R112: op on the operands of each active thread. -/
def vecForm (i : Instr) (f : Vr) (s : State) (op : Nat → Nat → Nat → Nat) : Host.Outcome State Fault Refusal :=
  perThread i f.g s (fun wk th s =>
    let w := f.ty.is64
    s.setLane th w f.d (op (s.lane th w f.a) (s.opB wk th w f) (s.lane th w f.c)))

/-- The shape of the two-operand forms computed exactly on integers of each element and narrowed (R117). -/
def vecInt (i : Instr) (f : Vr) (s : State) (op : Int → Int → Int) : Host.Outcome State Fault Refusal :=
  let w := (tyElems f.ty).1
  let sg := f.ty.isSigned
  vecForm i f s (perElem f.ty (fun a b _ => narrowInt sg f.sat w (op (intOf sg w a) (intOf sg w b))))

/-- VADD (R117). -/
def execVadd (f : Vr) (s : State) : Host.Outcome State Fault Refusal := vecInt (.vadd f) f s (fun a b => a + b)
/-- VSUB (R117). -/
def execVsub (f : Vr) (s : State) : Host.Outcome State Fault Refusal := vecInt (.vsub f) f s (fun a b => a - b)
/-- VMUL (R117). -/
def execVmul (f : Vr) (s : State) : Host.Outcome State Fault Refusal := vecInt (.vmul f) f s (fun a b => a * b)

/-- VMULH (R52, R117). -/
def execVmulh (f : Vr) (s : State) : Host.Outcome State Fault Refusal :=
  vecForm (.vmulh f) f s (perElem f.ty (fun a b _ => mulHigh f.ty.isSigned (tyElems f.ty).1 a b))

/-- VMAD (R119): with WIDE, 32-bit factors and a 64-bit addend and result. -/
def execVmad (f : Vr) (s : State) : Host.Outcome State Fault Refusal :=
  let sg := f.ty.isSigned
  if f.bit8 then
    perThread (.vmad f) f.g s (fun wk th s =>
      let x := intOf sg 32 (s.lane th false f.a) * intOf sg 32 (s.opB wk th false f) + intOf sg 64 (s.lane th true f.c)
      s.setLane th true f.d (narrowInt sg f.sat 64 x))
  else
    let w := (tyElems f.ty).1
    vecForm (.vmad f) f s (perElem f.ty (fun a b c => narrowInt sg f.sat w (intOf sg w a * intOf sg w b + intOf sg w c)))

/-- VMIN (R117). -/
def execVmin (f : Vr) (s : State) : Host.Outcome State Fault Refusal :=
  let w := (tyElems f.ty).1
  vecForm (.vmin f) f s (perElem f.ty (fun a b _ => if intOf f.ty.isSigned w b < intOf f.ty.isSigned w a then b else a))

/-- VMAX (R117). -/
def execVmax (f : Vr) (s : State) : Host.Outcome State Fault Refusal :=
  let w := (tyElems f.ty).1
  vecForm (.vmax f) f s (perElem f.ty (fun a b _ => if intOf f.ty.isSigned w a < intOf f.ty.isSigned w b then b else a))

/-- VABSD (R117): the exact magnitude of the difference. -/
def execVabsd (f : Vr) (s : State) : Host.Outcome State Fault Refusal :=
  let w := (tyElems f.ty).1
  vecForm (.vabsd f) f s (perElem f.ty (fun a b _ => (intOf f.ty.isSigned w a - intOf f.ty.isSigned w b).natAbs))

/-- b′ of the logical forms (R117). -/
def notB (f : Vr) (b : Nat) : Nat := if f.bit8 then 2 ^ tyW f.ty - 1 - b % 2 ^ tyW f.ty else b

/-- VAND (R117). -/
def execVand (f : Vr) (s : State) : Host.Outcome State Fault Refusal := vecForm (.vand f) f s (fun a b _ => a &&& notB f b)
/-- VOR (R117). -/
def execVor (f : Vr) (s : State) : Host.Outcome State Fault Refusal := vecForm (.vor f) f s (fun a b _ => a ||| notB f b)
/-- VXOR (R117). -/
def execVxor (f : Vr) (s : State) : Host.Outcome State Fault Refusal := vecForm (.vxor f) f s (fun a b _ => a ^^^ notB f b)

/-- The count operand of the shift forms (R118): one 32-bit lane register, the whole scalar under SB, or per element. -/
def State.shiftB (s : State) (wk th : Nat) (f : Vr) : Nat :=
  if (tyElems f.ty).2 = 1 then (if f.sb then (s.sget wk f.b.toNat).toNat else (s.vget th f.b.toNat).toNat)
  else s.opB wk th false f

/-- The shape of the shift forms (R118). -/
def vecShift (i : Instr) (f : Vr) (s : State) (op : Nat → Nat → Nat → Nat) : Host.Outcome State Fault Refusal :=
  perThread i f.g s (fun wk th s =>
    let a := s.lane th f.ty.is64 f.a
    let n := s.shiftB wk th f
    let e := tyElems f.ty
    s.setLane th f.ty.is64 f.d
      (if e.2 = 1 then op e.1 a n
       else joinElems e.1 ((List.range e.2).map (fun k => op e.1 (elem e.1 a k) (elem e.1 n k)))))

/-- VSHL (R118). -/
def execVshl (f : Vr) (s : State) : Host.Outcome State Fault Refusal := vecShift (.vshl f) f s shlW
/-- VSHR (R118): arithmetic for s types. -/
def execVshr (f : Vr) (s : State) : Host.Outcome State Fault Refusal :=
  vecShift (.vshr f) f s (if f.ty.isSigned then shrA else shrL)

/-- VBFX (R92, R118): b is one 32-bit register. -/
def execVbfx (f : Vr) (s : State) : Host.Outcome State Fault Refusal :=
  perThread (.vbfx f) f.g s (fun wk th s =>
    s.setLane th f.ty.is64 f.d (bfx f.ty.isSigned (tyW f.ty) (s.lane th f.ty.is64 f.a) (s.opB wk th false f)))

/-- VBFI (R92, R118): b is one 32-bit register. -/
def execVbfi (f : Vr) (s : State) : Host.Outcome State Fault Refusal :=
  perThread (.vbfi f) f.g s (fun wk th s =>
    s.setLane th f.ty.is64 f.d
      (bfi (tyW f.ty) (s.lane th f.ty.is64 f.a) (s.opB wk th false f) (s.lane th f.ty.is64 f.c)))

/-- VCLZ (R117): a 32-bit count. -/
def execVclz (f : Vr) (s : State) : Host.Outcome State Fault Refusal :=
  perThread (.vclz f) f.g s (fun _ th s => s.setLane th false f.d (clz (tyW f.ty) (s.lane th f.ty.is64 f.a)))

/-- VPOPC (R117): a 32-bit count. -/
def execVpopc (f : Vr) (s : State) : Host.Outcome State Fault Refusal :=
  perThread (.vpopc f) f.g s (fun _ th s => s.setLane th false f.d (popc (tyW f.ty) (s.lane th f.ty.is64 f.a)))

/-- VADDC (R120). -/
def execVaddc (f : Vr) (s : State) : Host.Outcome State Fault Refusal :=
  perThread (.vaddc f) f.g s (fun wk th s =>
    let x := addCarry (s.lane th false f.a) (s.opB wk th false f) f.bit12 (f.bit8 && s.pget th f.c.toNat)
    let s1 := s.setLane th false f.d x.1
    if f.co = 7 then s1 else s1.pset th f.co x.2)

/-- The exact sum of products of VDOT4 over n elements of width w (R121). -/
def dotSum (sa sb : Bool) (w a b : Nat) : Nat → Int
  | 0 => 0
  | n + 1 => intOf sa w (elem w a n) * intOf sb w (elem w b n) + dotSum sa sb w a b n

/-- VDOT4 (R121): with MIX the B elements have the opposite signedness. -/
def execVdot4 (f : Vr) (s : State) : Host.Outcome State Fault Refusal :=
  let sa := f.ty.isSigned
  let sb := sa != f.bit8
  let sg := sa || sb
  let e := tyElems f.ty
  vecForm (.vdot4 f) f s (fun a b c => narrowInt sg f.sat 32 (intOf sg 32 c + dotSum sa sb e.1 a b e.2))

/-- One result byte of VPERM (R122). -/
def permByte (a b sel : Nat) : Nat :=
  let j := sel % 8
  let y := if j < 4 then elem 8 a j else elem 8 b (j - 4)
  if sel / 128 % 2 = 1 then 0 else if sel / 64 % 2 = 1 then 255 - y else y

/-- VPERM (R122). -/
def execVperm (f : Vr) (s : State) : Host.Outcome State Fault Refusal :=
  vecForm (.vperm f) f s (fun a b c => joinElems 8 ((List.range 4).map (fun k => permByte a b (elem 8 c k))))

/-- The segment width G of VSHFL (R125). -/
def shflG (f : Vr) : Nat := if f.gw = 0 then 32 else 2 ^ f.gw

/-- The lane a member reads from (R125). -/
def shflSource (f : Vr) (lane k : Nat) : Nat :=
  let g := shflG f
  let q := lane % g
  let base := lane - q
  match f.mode with
  | 0 => base + k % g
  | 1 => base + (q + k % g) % g
  | 2 => base + (q ^^^ (k % g))
  | _ => base + (g - 1 - q)

/-- VSHFL at completion (R125): every member that joined with a true guard reads a contributor's value, or 0. -/
def doneVshfl (f : Vr) (s : State) (r : Rdv) : State :=
  r.actors.foldl (fun s m =>
    let k := if f.imm then f.k else m.c.toNat % 32
    let x := match r.actors.find? (fun y => y.lane == shflSource f m.lane k) with
      | some y => y.a.toNat
      | none => 0
    s.setLane m.th f.ty.is64 f.d x) s

/-- VSHFL (R125). -/
def execVshfl (f : Vr) (s : State) : Host.Outcome State Fault Refusal :=
  rendezvous (.vshfl f) f.g s
    { mask := fun s wk => lo32 (s.sget wk f.b.toNat)
      contrib := fun s _ th => { a := BitVec.ofNat 64 (s.lane th f.ty.is64 f.a), c := (s.vget th f.c.toNat).setWidth 64 }
      scalars := fun _ _ => (0, 0), opened := fun s _ _ => s
      complete := fun s _ r => (doneVshfl f s r, []) }

/-- VMBCNT at completion (R126). -/
def doneVmbcnt (f : Vr) (s : State) (r : Rdv) : State :=
  let bal := r.ballot.toNat
  r.actors.foldl (fun s m =>
    let n := if f.bit9 then m.lane + 1 else m.lane
    s.setLane m.th false f.d (popc n (bal % 2 ^ n))) s

/-- VMBCNT (R126). -/
def execVmbcnt (f : Vr) (s : State) : Host.Outcome State Fault Refusal :=
  rendezvous (.vmbcnt f) f.g s
    { mask := fun s wk => lo32 (s.sget wk f.b.toNat)
      contrib := fun s _ th => { p := (s.pget th f.a.toNat) != f.bit8 }
      scalars := fun _ _ => (0, 0), opened := fun s _ _ => s
      complete := fun s _ r => (doneVmbcnt f s r, []) }

/-- VCMP (R123). -/
def execVcmp (f : Vr) (s : State) : Host.Outcome State Fault Refusal :=
  perThread (.vcmp f) f.g s (fun wk th s =>
    let w := f.ty.is64
    s.pset th f.d.toNat
      (condInt f.cond3 (intOf f.ty.isSigned (tyW f.ty) (s.lane th w f.a)) (intOf f.ty.isSigned (tyW f.ty) (s.opB wk th w f))))

/-- VSEL (R123). -/
def execVsel (f : Vr) (s : State) : Host.Outcome State Fault Refusal :=
  perThread (.vsel f) f.g s (fun wk th s =>
    let w := f.ty.is64
    s.setLane th w f.d (if s.pget th f.c.toNat != f.bit8 then s.lane th w f.a else s.opB wk th w f))

/-- The source of VMOV (R123, R293): a travelling thread in handler state reads its own s61 and s62. -/
def State.movSource (s : State) (wk th : Nat) (f : Vr) : Nat :=
  if f.sb then
    match SMap.look s.threads th with
    | some t =>
      if t.wk % 2 = 1 ∧ t.handler ∧ f.b = 61 then t.h61.toNat
      else if t.wk % 2 = 1 ∧ t.handler ∧ f.b = 62 then t.h62.toNat
      else s.opB wk th f.ty.is64 f
    | none => s.opB wk th f.ty.is64 f
  else s.lane th f.ty.is64 f.a

/-- VMOV (R123). -/
def execVmov (f : Vr) (s : State) : Host.Outcome State Fault Refusal :=
  perThread (.vmov f) f.g s (fun wk th s => s.setLane th f.ty.is64 f.d (s.movSource wk th f))

/-- VMOVI's value (R124): for f64 the immediate is binary32, widened exactly. -/
def movImm (f : Im) : Nat :=
  match f.ty with
  | .s64 => (f.imm.signExtend 64).toNat
  | .f64 => Fmt.f64.round .rne false (Fmt.f32.value f.imm.toNat)
  | _ => f.imm.toNat

/-- VMOVI (R124). -/
def execVmovi (f : Im) (s : State) : Host.Outcome State Fault Refusal :=
  perThread (.vmovi f) f.g s (fun _ th s => s.setLane th f.ty.is64 f.d (movImm f))

/-- VADDI (R124). -/
def execVaddi (f : Im) (s : State) : Host.Outcome State Fault Refusal :=
  perThread (.vaddi f) f.g s (fun _ th s =>
    s.setLane th f.ty.is64 f.d
      ((s.lane th f.ty.is64 f.a + (f.imm.signExtend 64).toNat) % 2 ^ tyW f.ty))

end Sys2Proof.Machine
end

