-- ==== Sys2Proof/Machine/Float.lean ====
section
/-!
DEFINITION. Floating arithmetic and conversion, opcodes 0x60 to 0x7A (R127 to R138).
-/
namespace Sys2Proof.Machine

/-- The format of a floating type's element (R42, R53). -/
def tyFmt : Ty → Fmt
  | .f64 => .f64
  | .f16x2 => .f16
  | .bf16x2 => .bf16
  | _ => .f32

/-- RM of a form as a mode (R43). -/
def rmOf (f : Vr) : Rm := Rm.ofCode f.rm

/-- The shape of R127: the exact result of each element, rounded once. -/
def floatForm (i : Instr) (f : Vr) (s : State) (op : XR → XR → XR → XR) : Host.Outcome State Fault Refusal :=
  let m := tyFmt f.ty
  vecForm i f s (perElem f.ty (fun a b c => m.round (rmOf f) f.sat (op (m.value a) (m.value b) (m.value c))))

/-- VFADD (R127, R128). -/
def execVfadd (f : Vr) (s : State) : Host.Outcome State Fault Refusal :=
  floatForm (.vfadd f) f s (fun a b _ => XR.add (rmOf f) a b)
/-- VFSUB (R127, R128). -/
def execVfsub (f : Vr) (s : State) : Host.Outcome State Fault Refusal :=
  floatForm (.vfsub f) f s (fun a b _ => XR.add (rmOf f) a b.neg)
/-- VFMUL (R127, R128). -/
def execVfmul (f : Vr) (s : State) : Host.Outcome State Fault Refusal := floatForm (.vfmul f) f s (fun a b _ => a.mul b)
/-- VFMA (R127, R128). -/
def execVfma (f : Vr) (s : State) : Host.Outcome State Fault Refusal :=
  floatForm (.vfma f) f s (fun a b c => XR.fma (rmOf f) a b c)
/-- VFDIV (R72, R73, R127). -/
def execVfdiv (f : Vr) (s : State) : Host.Outcome State Fault Refusal := floatForm (.vfdiv f) f s (fun a b _ => a.div b)
/-- VFSQRT (R72, R73, R127). -/
def execVfsqrt (f : Vr) (s : State) : Host.Outcome State Fault Refusal := floatForm (.vfsqrt f) f s (fun a _ _ => a.sqrt)
/-- VFRCP (R72, R73, R127). -/
def execVfrcp (f : Vr) (s : State) : Host.Outcome State Fault Refusal := floatForm (.vfrcp f) f s (fun a _ _ => a.rcp)
/-- VFRSQ (R72, R73, R127). -/
def execVfrsq (f : Vr) (s : State) : Host.Outcome State Fault Refusal := floatForm (.vfrsq f) f s (fun a _ _ => a.rsqrt)
/-- VFEXP2 (R72, R73, R127). -/
def execVfexp2 (f : Vr) (s : State) : Host.Outcome State Fault Refusal := floatForm (.vfexp2 f) f s (fun a _ _ => a.exp2)
/-- VFLOG2 (R72, R73, R127). -/
def execVflog2 (f : Vr) (s : State) : Host.Outcome State Fault Refusal := floatForm (.vflog2 f) f s (fun a _ _ => a.log2)
/-- VFTANH (R72, R73, R127). -/
def execVftanh (f : Vr) (s : State) : Host.Outcome State Fault Refusal := floatForm (.vftanh f) f s (fun a _ _ => a.tanh)
/-- VFSIGM (R72, R73, R127). -/
def execVfsigm (f : Vr) (s : State) : Host.Outcome State Fault Refusal := floatForm (.vfsigm f) f s (fun a _ _ => a.sigmoid)

/-- VFMIN (R56, R129). -/
def execVfmin (f : Vr) (s : State) : Host.Outcome State Fault Refusal :=
  vecForm (.vfmin f) f s (perElem f.ty (fun a b _ => fminmaxNum (tyFmt f.ty) false a b))
/-- VFMAX (R56, R129). -/
def execVfmax (f : Vr) (s : State) : Host.Outcome State Fault Refusal :=
  vecForm (.vfmax f) f s (perElem f.ty (fun a b _ => fminmaxNum (tyFmt f.ty) true a b))

/-- VFSGN on one element: a with its sign bit replaced (R129). -/
def signOp (m : Fmt) (op a b : Nat) : Nat :=
  let mag := a % 2 ^ m.magBits
  let sa := decide (a / 2 ^ m.magBits % 2 = 1)
  let sb := decide (b / 2 ^ m.magBits % 2 = 1)
  m.signed (match op with
    | 0 => sb
    | 1 => !sb
    | _ => sa != sb) mag

/-- VFSGN (R55, R129). -/
def execVfsgn (f : Vr) (s : State) : Host.Outcome State Fault Refusal :=
  vecForm (.vfsgn f) f s (perElem f.ty (fun a b _ => signOp (tyFmt f.ty) f.mode a b))

/-- VFCMP (R130). -/
def execVfcmp (f : Vr) (s : State) : Host.Outcome State Fault Refusal :=
  perThread (.vfcmp f) f.g s (fun wk th s =>
    let w := f.ty.is64
    let e := (tyElems f.ty).1
    let m := tyFmt f.ty
    let k := f.bit12.toNat
    s.pset th f.d.toNat
      (condFloat f.cond4 (m.value (elem e (s.lane th w f.a) k)) (m.value (elem e (s.opB wk th w f) k))))

/-- The class word of a value (R131): element 0 in [9:0], element 1 in [25:16]. -/
def classWord (t : Ty) (a : Nat) : Nat :=
  let e := tyElems t
  joinElems 16 ((List.range e.2).map (fun k => 2 ^ classBit (tyFmt t) (elem e.1 a k)))

/-- VFCLASS (R131): D is one register. -/
def execVfclass (f : Vr) (s : State) : Host.Outcome State Fault Refusal :=
  perThread (.vfclass f) f.g s (fun _ th s => s.setLane th false f.d (classWord f.ty (s.lane th f.ty.is64 f.a)))

/-- VFRND on one element (R132). -/
def roundIntegral (m : Fmt) (rm : Rm) (a : Nat) : Nat :=
  match m.value a with
  | .nan => m.nanCode
  | .inf _ => a
  | .fin neg x e =>
    if x = 0 then a
    else if (m.prec : Int) - 1 ≤ (Nat.log2 x : Int) + e then a
    else
      let r := roundToInt rm neg x e
      m.round .rne false (.fin neg r.natAbs 0)

/-- VFRND (R132). -/
def execVfrnd (f : Vr) (s : State) : Host.Outcome State Fault Refusal :=
  vecForm (.vfrnd f) f s (perElem f.ty (fun a _ _ => roundIntegral (tyFmt f.ty) (rmOf f) a))

/-- VFLDX (R133): n is b as an s32, or each s16 of b. -/
def execVfldx (f : Vr) (s : State) : Host.Outcome State Fault Refusal :=
  perThread (.vfldx f) f.g s (fun wk th s =>
    let w := f.ty.is64
    let e := tyElems f.ty
    let m := tyFmt f.ty
    let a := s.lane th w f.a
    let b := s.opB wk th false f
    let n := fun k => if e.2 = 1 then intOf true 32 b else intOf true 16 (elem 16 b k)
    s.setLane th w f.d (joinElems e.1 ((List.range e.2).map (fun k =>
      m.round (rmOf f) f.sat ((m.value (elem e.1 a k)).scale (n k))))))

/-! Conversions (R134 to R138). -/

/-- A conversion between two integer types (R134). -/
def cvtInt (src dst : Ty) (sat : Bool) (a : Nat) : Nat :=
  let x := intOf src.isSigned (tyW src) a
  wrapTo (tyW dst) (if sat then satTo dst.isSigned (tyW dst) x else x)

/-- A floating type (R42). -/
def tyIsFloat : Ty → Bool
  | .f32 | .f16x2 | .bf16x2 | .f64 => true
  | _ => false

/-- One element of VCVT between element types of the given widths (R134). -/
def cvtElem (src dst : Ty) (rm : Rm) (sat : Bool) (a : Nat) : Nat :=
  let ws := (tyElems src).1
  let wd := (tyElems dst).1
  if tyIsFloat src then
    if tyIsFloat dst then (tyFmt dst).round rm sat ((tyFmt src).value a)
    else cvtF2I dst.isSigned wd rm ((tyFmt src).value a)
  else (tyFmt dst).round rm sat (xrOfInt (intOf src.isSigned ws a))

/-- A packed type of two 16-bit elements. -/
def isHalf2 (t : Ty) : Bool := decide ((tyElems t).1 = 16)

/-- VCVT's result from a and b (R134). -/
def cvtWord (f : Vr) (src : Ty) (a b : Nat) : Nat :=
  let rm := (rmOf f)
  if tyI.contains src && tyI.contains f.ty then cvtInt src f.ty f.sat a
  else if isHalf2 src && isHalf2 f.ty then
    joinElems 16 ((List.range 2).map (fun k => cvtElem src f.ty rm f.sat (elem 16 a k)))
  else if isHalf2 src then cvtElem src f.ty rm f.sat (elem 16 a f.bit12.toNat)
  else if isHalf2 f.ty then joinElems 16 [cvtElem src f.ty rm f.sat a, cvtElem src f.ty rm f.sat b]
  else cvtElem src f.ty rm f.sat a

/-- VCVT (R134). -/
def execVcvt (f : Vr) (s : State) : Host.Outcome State Fault Refusal :=
  let src := (tyOfNat f.cond4).getD .b32
  perThread (.vcvt f) f.g s (fun wk th s =>
    s.setLane th f.ty.is64 f.d (cvtWord f src (s.lane th src.is64 f.a) (s.opB wk th false f)))

/-- The binary8 variant a VCVT8 or VCVTMX names (R135). -/
def fmt8 (f : Vr) : Fmt := .f8 f.prec f.bit12 f.fin

/-- The elements a narrowing reads, in position order (R136, R137): a and b with f32, else the elements of a, then of b. -/
def narrowElems (t : Ty) (a b : Nat) : List XR :=
  if t = .f32 then [Fmt.f32.value a, Fmt.f32.value b]
  else [(tyFmt t).value (elem 16 a 0), (tyFmt t).value (elem 16 a 1), (tyFmt t).value (elem 16 b 0), (tyFmt t).value (elem 16 b 1)]

/-- Bytes put into a register from byte `at_` on; the other bytes stay (R136). -/
def putBytes (old at_ : Nat) (bs : List Nat) : Nat :=
  joinElems 8 ((List.range 4).map (fun k => if k < at_ then elem 8 old k else (bs[k - at_]?).getD (elem 8 old k)))

/-- VCVT8's first written byte (R136). -/
def cvt8At (f : Vr) : Nat := if f.ty = .f32 ∧ f.hi then 2 else 0

/-- VCVT8 widening (R136): two destination registers. -/
def widen8 (f : Vr) (a : Nat) : Nat × Nat :=
  let m := (fmt8 f)
  if f.ty = .f32 then
    let at_ := cvt8At f
    (Fmt.f32.round (rmOf f) f.sat (m.value (elem 8 a at_)), Fmt.f32.round (rmOf f) f.sat (m.value (elem 8 a (at_ + 1))))
  else
    let w := fun k => (tyFmt f.ty).round (rmOf f) f.sat (m.value (elem 8 a k))
    (joinElems 16 [w 0, w 1], joinElems 16 [w 2, w 3])

/-- The element a member contributes to position k of an error-feedback narrowing, for lanes 0 to 31 (R137). -/
def efBlock (r : Rdv) (t : Ty) (k : Nat) : List (Option XR) :=
  (List.range 32).map (fun l => (r.actors.find? (fun m => m.lane == l)).bind (fun m => (narrowElems t m.a.toNat m.b.toNat)[k]?))

/-- With SB every member's b is S[B] as the issue of the group with the lowest joined lane read it (R96 rule 6). -/
def Rdv.shareB (r : Rdv) (sb : Bool) : Rdv :=
  match sb, r.lowest with
  | true, some low => { r with members := r.members.map (fun m => { m with b := low.sc }) }
  | _, _ => r

/-- VCVT8.ef at completion (R137). -/
def doneVcvt8 (f : Vr) (s : State) (r : Rdv) : State :=
  let n := if f.ty = .f32 then 2 else 4
  let r := r.shareB f.sb
  let blocks := (List.range n).map (fun k => efRound (fmt8 f) f.sat (efBlock r f.ty k))
  r.actors.foldl (fun s m =>
    let bs := blocks.map (fun b => ((b[m.lane]?).getD none).getD 0)
    s.setLane m.th false f.d (putBytes (s.lane m.th false f.d) (cvt8At f) bs)) s

/-- VCVT8 (R135 to R137): widening, narrowing, or with EF a warp rendezvous. -/
def execVcvt8 (f : Vr) (s : State) : Host.Outcome State Fault Refusal :=
  if f.bit8 then
    perThread (.vcvt8 f) f.g s (fun _ th s =>
      let x := widen8 f (s.lane th false f.a)
      (s.vset th f.d.toNat (BitVec.ofNat 32 x.1)).vset th (f.d.toNat + 1) (BitVec.ofNat 32 x.2))
  else if f.ef then
    rendezvous (.vcvt8 f) f.g s
      { mask := fun s wk => lo32 (s.sget wk f.c.toNat)
        contrib := fun s wk th => { a := BitVec.ofNat 64 (s.lane th false f.a), b := BitVec.ofNat 64 (s.opB wk th false f) }
        scalars := fun s wk => (0, (lo32 (s.sget wk f.b.toNat)).setWidth 64), opened := fun s _ _ => s
        complete := fun s _ r => (doneVcvt8 f s r, []) }
  else
    perThread (.vcvt8 f) f.g s (fun wk th s =>
      let bs := (narrowElems f.ty (s.lane th false f.a) (s.opB wk th false f)).map ((fmt8 f).round (rmOf f) f.sat)
      s.setLane th false f.d (putBytes (s.lane th false f.d) (cvt8At f) bs))

/-- VCVTMX's positions: the elements of a (R138). -/
def mxElems (t : Ty) (a : Nat) : List XR :=
  if t = .f32 then [Fmt.f32.value a] else [(tyFmt t).value (elem 16 a 0), (tyFmt t).value (elem 16 a 1)]

/-- VCVTMX's first written byte (R138). -/
def mxAt (f : Vr) : Nat := 2 * f.hi.toNat + (if f.ty = .f32 then f.bit8.toNat else 0)

/-- A block divided by its scale (R65): a NaN scale makes every element NaN. -/
def scaleBlock (c : Nat) (xs : List (Option XR)) : List (Option XR) :=
  xs.map (fun x => x.map (fun v => match e8m0 c with
    | some k => v.scale (-k)
    | none => .nan))

/-- A block narrowed, by ef_round or element by element (R60, R64). -/
def narrowBlock (m : Fmt) (rm : Rm) (sat ef : Bool) (xs : List (Option XR)) : List (Option Nat) :=
  if ef then efRound m sat xs else xs.map (fun x => x.map (m.round rm sat))

/-- VCVTMX at completion (R138): the scales are computed once, each member's codes are written, then S[C]. -/
def doneVcvtmx (f : Vr) (s : State) (r : Rdv) : State :=
  let n := if f.ty = .f32 then 1 else 2
  let block := fun k => (List.range 32).map (fun l =>
    (r.actors.find? (fun m => m.lane == l)).bind (fun m => (mxElems f.ty m.a.toNat)[k]?))
  let scales := (List.range n).map (fun k => mxScale (fmt8 f) (block k))
  let codes := (List.range n).map (fun k =>
    narrowBlock (fmt8 f) (rmOf f) f.sat f.ef (scaleBlock ((scales[k]?).getD 0x7F) (block k)))
  let s1 := r.actors.foldl (fun s m =>
    let bs := codes.map (fun b => ((b[m.lane]?).getD none).getD 0)
    s.setLane m.th false f.d (putBytes (s.lane m.th false f.d) (mxAt f) bs)) s
  if r.actors.isEmpty then s1 else s1.sset r.wk f.c.toNat (BitVec.ofNat 64 (joinElems 8 scales))

/-- VCVTMX (R138): always a warp rendezvous. -/
def execVcvtmx (f : Vr) (s : State) : Host.Outcome State Fault Refusal :=
  rendezvous (.vcvtmx f) f.g s
    { mask := fun s wk => lo32 (s.sget wk f.b.toNat)
      contrib := fun s _ th => { a := BitVec.ofNat 64 (s.lane th false f.a) }
      scalars := fun _ _ => (0, 0), opened := fun s _ _ => s
      complete := fun s _ r => (doneVcvtmx f s r, []) }

end Sys2Proof.Machine
end

