-- ==== Sys2Proof/Machine/Memory.lean ====
section
/-!
DEFINITION. Memory: bytes, address formation and the checks of R146, the issue of loads and stores, and how an access is
performed (R139 to R157, R163, R234 to R243). A load's value is fixed when it returns; a store passes its warp's queue, the core's
merge point and its cluster, and is performed at package scope when physical memory holds it.
-/
namespace Sys2Proof.Machine

/-! Bytes. -/

/-- A byte of physical memory; nothing listed reads zero (assumption 6). -/
def State.byte (s : State) (pa : Nat) : Byte := SMap.read 0 s.mem pa

/-- A byte of physical memory written. -/
def State.setByte (s : State) (pa : Nat) (b : Byte) : State := { s with mem := SMap.write 0 s.mem pa b }

/-- Bytes of physical memory from an address up. -/
def State.bytesAt (s : State) (pa n : Nat) : List Byte := (upFrom pa n).map s.byte

/-- Bytes written from an address up. -/
def State.putMem (s : State) : Nat → List Byte → State
  | _, [] => s
  | pa, b :: bs => (s.setByte pa b).putMem (pa + 1) bs

/-- A little-endian word of physical memory. -/
def State.memWord (s : State) (pa n : Nat) : Nat := ofLeBytes (s.bytesAt pa n)

/-- The key of a scratchpad byte. -/
def scrKey (owner off : Nat) : Nat := owner * 2 ^ 18 + off

/-- A byte of a scratchpad. -/
def State.scrByte (s : State) (owner off : Nat) : Byte := SMap.read 0 s.scr (scrKey owner off)

/-- A byte of a scratchpad written. -/
def State.setScr (s : State) (owner off : Nat) (b : Byte) : State :=
  { s with scr := SMap.write 0 s.scr (scrKey owner off) b }

/-- Bytes written to a scratchpad from an offset up. -/
def State.putScrBytes (s : State) (owner : Nat) : Nat → List Byte → State
  | _, [] => s
  | off, b :: bs => (s.setScr owner off b).putScrBytes owner (off + 1) bs

/-- A write of scratchpad bytes; every 32-bit word it covers whole has fresh codes (R368, R384). -/
def State.putScr (s : State) (owner off : Nat) (bs : List Byte) : State :=
  let k := scrKey owner off
  let s1 := s.putScrBytes owner off bs
  { s1 with scrBad := SMap.keep (fun w _ => !decide (k ≤ 4 * w ∧ 4 * w + 4 ≤ k + bs.length)) s1.scrBad }

/-- The scratchpad words an access touches, as keys (R368). -/
def scrWords (owner off n : Nat) : List Nat := (upFrom (scrKey owner off / 4) ((off % 4 + n + 3) / 4))

/-- Bytes at a physical address, within one sector, hold an uncorrectable error: that of the sector, or in scheduler memory of one of their
words (R368, R384). -/
def State.badBytes (s : State) (pa n : Nat) : Bool :=
  if pa < 2 ^ 48 then (SMap.look s.bad (pa / 32)).isSome
  else (upFrom (pa / 4) ((pa % 4 + n + 3) / 4)).any (fun w => (SMap.look s.bad (2 ^ 60 + w)).isSome)

/-! Translation. -/

/-- The parameter window (R428). -/
def inParamWindow (a : Nat) : Bool := decide (0xFD0000000000 ≤ a ∧ a ≤ 0xFDFFFFFFFFFF)
/-- The code window and the save window (R27, R355). -/
def inSaveWindow (a : Nat) : Bool := decide (0xFE0000000000 ≤ a ∧ a ≤ 0xFFFFFFFFFFFF)

/-- The extent of a core that covers an address; a stale one misses (R359). -/
def State.extentAt (s : State) (core a : Nat) : Option Extent :=
  (s.coreOf core).exts.find? (fun e => !e.stale && decide (e.va ≤ a ∧ a < e.va + e.len))

/-- The physical address of a byte under an extent. -/
def Extent.phys (e : Extent) (a : Nat) : Nat := e.pa + (a - e.va)

/-! Spaces and addresses (R143). -/

/-- The scratchpad a thread's LDS or STS reaches: its team's, or its segment's on the core it occupies (R143). -/
def State.scrOwner (s : State) (th : Nat) : Nat :=
  match SMap.look s.threads th with
  | some t => if t.wk % 2 = 1 then 2 * (t.wk / 2 / 64) + 1
              else 2 * teamOfTh th
  | none => 0

/-- Where an access goes, by form (R139). -/
inductive Where where
  | global | local_ | group
  deriving DecidableEq, Repr

/-- The team of a rank of a thread's cluster group (R143, R258). -/
def State.sibling (s : State) (th rank : Nat) : Option (Nat × Team) :=
  match SMap.look s.teams (teamOfTh th), s.gridOfTeam (teamOfTh th) with
  | some t, some g =>
    let k := max g.cg 1
    SMap.find (fun _ u => u.grid == t.grid && u.idx == t.idx / k * k + rank) s.teams
  | _, _ => none

/-- The range check of R143 and R144: the space and the offset within it, or ADDRESS. -/
def State.locate (s : State) (wh : Where) (th : Nat) (a : W64) (width : Nat) : Option (Space × Nat) :=
  match wh with
  | .global => if a.toNat < 2 ^ 48 then some (.glob, a.toNat) else none
  | .local_ =>
    let b := ((s.gridOfTeam (teamOfTh th)).map Grid.scratch).getD 0
    if a.toNat + width ≤ b then some (.scr (s.scrOwner th), a.toNat) else none
  | .group =>
    match s.gridOfTeam (teamOfTh th) with
    | none => none
    | some g =>
      let rank := a.toNat / 2 ^ 18 % 4
      let off := a.toNat % 2 ^ 18
      if a.toNat < 2 ^ 20 ∧ rank < max g.cg 1 ∧ off + width ≤ g.scratch then
        match s.sibling th rank with
        | some (tk, u) => if u.at_ = .suspended then none else some (.scr (2 * tk), off)
        | none => none
      else none

/-! Watchpoints and range locks (R146, R189, R367). -/

/-- A context's enabled watchpoints that a byte range and kind match (R366, R367). -/
def Ctx.watchHits (c : Ctx) (lo n : Nat) (isRead isWrite : Bool) : List Nat :=
  (List.range 4).filter (fun k =>
    let ctl := ((c.watchC[k]?).getD 0).toNat
    let size := min (ctl / 2 ^ 8 % 64) 40
    let base := ((c.watchA[k]?).getD 0).toNat % 2 ^ 48 / 2 ^ size * 2 ^ size
    decide (ctl % 2 = 1) && ((isRead && decide (ctl / 2 % 2 = 1)) || (isWrite && decide (ctl / 4 % 2 = 1)))
      && decide (lo < base + 2 ^ size ∧ base < lo + n))

/-- HITS of a watchpoint counted, saturating (R366, R367). -/
def Ctx.countHit (c : Ctx) (k : Nat) : Ctx :=
  let w := (c.watchC[k]?).getD 0
  let hits := w.toNat / 2 ^ 32 % 2 ^ 16
  { c with watchC := c.watchC.set k (if hits = 65535 then w else w + 0x100000000) }

/-- Two byte ranges of one space meet. -/
def meets (x y : Hull) : Bool := decide (x.space = y.space) && decide (x.lo < y.hi ∧ y.lo < x.hi)

/-- The range locks of a cluster that an access of a context hits (R146 row 6): any access on a destination, a write on a source. -/
def State.lockHit (s : State) (core ctx : Nat) (h : Hull) (isWrite : Bool) : Bool :=
  (s.cluster (core / 4)).locks.any (fun l =>
    (decide (h.space ≠ .glob) || l.ctx == ctx)
      && ((l.dst.any (meets h)) || (isWrite && meets h l.src)))

/-! The checks of R146. -/

/-- How an access ends its checks. -/
inductive Check where
  | ok (acc : LaneAcc)
  /-- A trap of R146, with its code. -/
  | trap (code : Nat)
  /-- An extent miss at an address (R147). -/
  | park (va : Nat)
  deriving DecidableEq, Repr

/-- What one thread's access asks. -/
structure Ask where
  wh      : Where
  addr    : W64
  width   : Nat
  align   : Nat        -- 1 where any alignment is accepted (R145)
  isRead  : Bool
  isWrite : Bool
  data    : BitVec 128 := 0
  data2   : W64 := 0
  locks   : Bool := true   -- row 6 applies; a FORK's record is checked by rows 1 to 5 (R203)
  watch   : Bool := true   -- row 3 applies; not to an engine's block (R174, R184, R367), nor to a receive's buffer (R211)
  deriving DecidableEq, Repr

/-- Whether some byte of a page range of the reserved windows is no readable slot (R355, R428). -/
def State.windowBad (s : State) (ck a n : Nat) (isWrite : Bool) : Bool :=
  inSaveWindow a || inSaveWindow (a + n - 1)
    || ((inParamWindow a || inParamWindow (a + n - 1)) &&
        (isWrite || !(SMap.look s.slots (ck * 2 ^ 28 + (a - 0xFD0000000000) / 4096)).isSome
          || !(SMap.look s.slots (ck * 2 ^ 28 + (a + n - 1 - 0xFD0000000000) / 4096)).isSome))

/-- Whether a whole range reaches a reserved window where it may not (R355, R428). -/
def State.windowRange (s : State) (ck lo hi : Nat) (isWrite : Bool) : Bool :=
  let inP := decide (lo ≤ 0xFDFFFFFFFFFF ∧ 0xFD0000000000 ≤ hi)
  decide (0xFE0000000000 ≤ hi ∧ lo ≤ 0xFFFFFFFFFFFF) ||
    (inP && (isWrite || !(inParamWindow lo && inParamWindow hi) ||
      !((upFrom ((lo - 0xFD0000000000) / 4096) ((hi - lo) / 4096 + 2)).all (fun k =>
        decide (hi < 0xFD0000000000 + 4096 * k) || (SMap.look s.slots (ck * 2 ^ 28 + k)).isSome))))

/-- Rows 1 to 6 of R146, in order, for one thread; row 8 is the store's own. -/
def State.check (s : State) (th : Nat) (q : Ask) : Check :=
  let core := s.coreOfTh th
  let g := s.gridOfTeam (teamOfTh th)
  let ck := (g.map Grid.ctx).getD 0
  let c := (SMap.look s.ctxs ck).getD {}
  match s.locate q.wh th q.addr q.width with
  | none => .trap 0x06
  | some (sp, off) =>
    if off % q.align ≠ 0 then .trap 0x05
    else
      let n1 := min q.width (32 - off % 32)
      let acc : LaneAcc := { th := th, space := sp, addr := q.addr, pa := off, pa2 := off + n1, data := q.data,
                             data2 := q.data2, got1 := none, got2 := none, flt := 0 }
      let locked := q.locks && (q.isRead || q.isWrite) && s.lockHit core ck { space := sp, lo := off, hi := off + q.width } q.isWrite
      -- row 3 compares the formed address, in every space (assumption 128)
      if q.watch && !(c.watchHits q.addr.toNat q.width q.isRead q.isWrite).isEmpty then .trap 0x0D
      else match sp with
      | .scr owner =>
        if locked then .trap 0x09
        else if q.isRead && (scrWords owner off q.width).any (fun k => (SMap.look s.scrBad k).isSome) then .trap 0x10
        else .ok acc
      | .glob =>
        if s.windowBad ck off q.width q.isWrite then .trap 0x08
        else match s.extentAt core off, s.extentAt core (off + q.width - 1) with
          | some e1, some e2 =>
            if (q.isRead && !(e1.r && e2.r)) || (q.isWrite && !(e1.w && e2.w)) then .trap 0x08
            else if locked then .trap 0x09
            else .ok { acc with pa := e1.phys off, pa2 := if n1 < q.width then e2.phys (off + n1) else e1.phys off + n1 }
          | none, _ => .park off
          | _, none => .park (off + q.width - 1)

/-! Replay entries of a memory form (R226, R227). -/

/-- A lane record from an access; the second operand of a compare-and-swap is captured in the upper eight bytes. -/
def laneRec (q : Ask) (code : Nat) : RLane := { addr := q.addr, data := q.data + BitVec.ofNat 128 (2 ^ 64 * q.data2.toNat), stat := BitVec.ofNat 64 code }

/-- The replay entry of threads of one warp stopped at one instruction. -/
def mkEntry (kind trap w gen : Nat) (pc : W64) (ls : List (Nat × RLane)) : REntry :=
  { kind := kind, trap := trap, w := w, gen := gen, drop := false, halt := false, rtr := 0, tok := 255, idx := 0,
    mask := maskOf (ls.map Prod.fst), elems := 0, waits := 0, pc := pc, aux := 0, lanes := ls.foldl (fun m p => SMap.ins m p.1 p.2) [] }

/-- An entry appended to a warp's replay queue; answers its index. -/
def State.pushEntry (s : State) (wk : Nat) (e : REntry) : State × Nat :=
  let n := ((SMap.look s.warps wk).map (fun w => w.rq.length)).getD 0
  (s.updWarp wk (fun w => { w with rq := w.rq ++ [e] }), n)

/-- The generation tag of a warp (R226). -/
def State.genOf (s : State) (wk : Nat) : Nat := ((SMap.look s.warps wk).map Warp.gen).getD 0

/-- A parked lane: it leaves its group and waits for an extent (R147). -/
def State.park (s : State) (th : Nat) (pc : W64) : State :=
  (s.leaveGroup th).updThread th (fun t => { t with stat := .extentMiss, inTable := false, pc := pc, parkPc := pc })

/-- A parked lane whose access is performed from its entry, and which then goes on at `rpc` (R147, R229). -/
def State.parkTo (s : State) (th : Nat) (pc rpc : W64) : State := (s.park th pc).updThread th (fun t => { t with parkPc := rpc })

/-- What the threads of one warp that fail their checks leave: a KIND 0 entry and traps for those that trap, a KIND 1 entry and
parks for those that miss (R146, R147, R225). -/
def State.failLanes (s : State) (wk : Nat) (pc rpc : W64) (w : Nat) (fails : List (Nat × Ask × Check)) : State × List TrapReq :=
  let traps := fails.filterMap (fun p => match p.2.2 with | .trap c => some (p.1, p.2.1, c) | _ => none)
  let parks := fails.filterMap (fun p => match p.2.2 with | .park a => some (p.1, p.2.1, a) | _ => none)
  let s1 := match parks with
    | [] => s
    | _ :: _ =>
      let e := mkEntry 1 0 w (s.genOf wk) pc (parks.map (fun p => (laneOfTh p.1, laneRec p.2.1 0)))
      parks.foldl (fun s p => s.parkTo p.1 pc rpc) (s.pushEntry wk e).1
  match traps with
  | [] => (s1, [])
  | t :: _ =>
    let e := mkEntry 0 t.2.2 w (s.genOf wk) pc (traps.map (fun p => (laneOfTh p.1, laneRec p.2.1 p.2.2)))
    let p := s1.pushEntry wk e
    (p.1, traps.map (fun t => { th := t.1, code := t.2.2, info := t.2.1.addr, rpc := rpc, entry := some p.2 }))

/-- The threads that parked with a warp's newest entry, which names one lane of them (R147). -/
def State.noteWaits (s : State) (wk : Nat) (ths : List Nat) : State :=
  s.updWarp wk (fun w => { w with rq := w.rq.take (w.rq.length - 1)
    ++ (w.rq.drop (w.rq.length - 1)).map (fun e => { e with waits := maskOf (ths.map laneOfTh) }) })

/-! Issuing an operation. -/

/-- Destination registers of a lane become busy until the operation writes them (R79). -/
def State.busyLane (s : State) (th : Nat) (dst : Option RegField) (n op : Nat) : State :=
  match dst with
  | some d => if d = 255 then s
              else { s with vbusy := (upFrom d.toNat n).foldl (fun m r => SMap.ins m (vkey th r) op) s.vbusy }
  | none => s

/-- A scalar destination becomes busy (R79, R80). -/
def State.busyScalar (s : State) (wk : Nat) (d : RegField) (op : Nat) : State :=
  if d = 63 then s else { s with sbusy := SMap.ins s.sbusy (skey wk d.toNat) op }

/-- The lanes a counter entry covers: the threads active at issue, of a form that acts per thread those whose access is under way
(R77, R78). -/
def MemOp.cover (o : MemOp) : W32 := maskOf ((if o.ths.isEmpty then o.lanes.map LaneAcc.th else o.ths).map laneOfTh)

/-- The extents of a core that accesses go through are the most recently used (R275). -/
def State.noteUse (s : State) (core : Nat) (vas : List Nat) : State :=
  { s with extUse := (vas.filterMap (s.extentAt core)).foldl (fun m e => SMap.ins m (core * 2 ^ 48 + e.va) s.now) s.extUse }

/-- An operation issues: it is listed, its destinations are busy, and its counter has an entry over the threads active at issue; one
that nothing performs completes at once (R77 to R79). -/
def State.issueOp (s : State) (o : MemOp) : State :=
  let n := s.newId
  let idle := o.lanes.isEmpty && o.kind != .fence && o.kind != .linv
  let s1 : State := if idle then n.2
    else { n.2 with ops := SMap.ins n.2.ops n.1 o }
  let s2 := if o.sdst then (match o.dst, o.lanes with | some d, _ :: _ => s1.busyScalar o.wk d n.1 | _, _ => s1)
            else o.lanes.foldl (fun s l => s.busyLane l.th o.dst o.regs n.1) s1
  let s3 := s2.noteUse o.core ((o.lanes.filter (fun l => l.space == .glob)).flatMap (fun l => [l.addr.toNat, l.addr.toNat + (o.width - 1)]))
  if o.w ≤ 5 then s3.addEntry o.wk o.w n.1 (if idle then 0 else o.cover) else s3

/-- Counter code of W (R44). -/
def wOf : Wctr → Nat
  | .cnt n => n.val
  | .none => 6

/-- Bytes of SZ (R44). -/
def szBytes : Sz → Nat
  | .z8 => 1 | .z16 => 2 | .z32 => 4 | .z64 => 8 | .z128 => 16

/-- Lane registers of SZ (R140). -/
def szRegs : Sz → Nat
  | .z64 => 2 | .z128 => 4 | _ => 1

/-- A lane's data operand, width bits (R140). -/
def State.laneData (s : State) (th : Nat) (sz : Sz) (r : RegField) : BitVec 128 :=
  let word := fun k => (s.vget th (r.toNat + k)).toNat
  BitVec.ofNat 128 (match sz with
    | .z8 => (s.vget th r.toNat).toNat % 2 ^ 8
    | .z16 => (s.vget th r.toNat).toNat % 2 ^ 16
    | .z32 => (s.vget th r.toNat).toNat
    | .z64 => (s.vgetp th r.toNat).toNat
    | .z128 => word 0 + 2 ^ 32 * word 1 + 2 ^ 64 * word 2 + 2 ^ 96 * word 3)

/-- The counters that may not take a sixteenth entry (R77). -/
def State.counterFull (s : State) (wks : List Nat) (w : Nat) : Bool :=
  decide (w ≤ 5) && wks.any (fun wk => decide (15 ≤ ((SMap.look s.warps wk).map (fun x => x.count w)).getD 0))

/-- The store queue of a warp: its store operations, 32 at most (R150). -/
def State.queueLen (s : State) (wk : Nat) : Nat := (s.ops.filter (fun e => e.2.wk == wk && e.2.kind == .store)).length

/-- ORD's acquire and release at a scope (R241). -/
def acqOf (o : Ord) (sc : Scope) : Option Scope := if o = .acq ∨ o = .ar then some sc else none
/-- ORD's release at a scope (R241). -/
def relOf (o : Ord) (sc : Scope) : Option Scope := if o = .rel ∨ o = .ar then some sc else none

/-- An operation of a kind with every field at its least. -/
def baseOp (kind : MKind) : MemOp :=
  { wk := 0, core := 0, kind := kind, pc := 0, width := 0, lanes := [], dst := none, regs := 0, sdst := false, w := 6,
    acq := none, rel := none, byL2 := false, rdist := .near, aop := .add, use_ := .none, ret := false, ths := [],
    late := false, gen := 0, frag := none, issued := 0, inst := 0, held := false }

/-- The checked accesses of one warp's threads: those that pass, and those that fail. -/
def splitChecks (rs : List (Nat × Ask × Check)) : List LaneAcc × List (Nat × Ask × Check) :=
  (rs.filterMap (fun p => match p.2.2 with | .ok a => some a | _ => none),
   rs.filter (fun p => match p.2.2 with | .ok _ => false | _ => true))

/-- WATCH hits counted for the accesses that matched, one for each watchpoint that each matches (R367). -/
def State.countWatch (s : State) (fails : List (Nat × Ask × Check)) : State :=
  fails.foldl (fun s p =>
    match p.2.2 with
    | .trap 0x0D =>
      match s.gridOfTeam (teamOfTh p.1) with
      | some g =>
        let a := p.2.1
        (((SMap.look s.ctxs g.ctx).getD {}).watchHits a.addr.toNat a.width a.isRead a.isWrite).foldl (fun (s : State) k =>
          s.updCtx g.ctx (fun c => c.countHit k)) s
      | none => s
    | _ => s) s

/-- What a memory form asks of each thread that it acts on, apart from the thread's own address and data. -/
structure MForm where
  wh      : Where
  width   : Nat
  align   : Nat
  isRead  : Bool
  isWrite : Bool
  /-- Once per warp, for its lowest active thread (R75). -/
  elect   : Bool
  /-- It takes a store-queue entry (R150). -/
  queued  : Bool
  w       : Nat
  /-- The bound check of row 8 applies, with elements of this size (R152). -/
  chk     : Option Sz
  /-- The operation, but for its lanes. -/
  op      : MemOp

/-- What a thread asks with its address and data. -/
def MForm.ask (m : MForm) (addr : W64) (data : BitVec 128) (data2 : W64) : Ask :=
  { wh := m.wh, addr := addr, width := m.width, align := m.align, isRead := m.isRead, isWrite := m.isWrite,
    data := data, data2 := data2 }

/-- The operation of a warp's lanes, issued now at an address. -/
def MForm.opOf (m : MForm) (s : State) (wk inst : Nat) (pc : W64) (ls : List LaneAcc) : MemOp :=
  { m.op with wk := wk, core := s.coreOfTh ((ls.head?.map LaneAcc.th).getD 0), pc := pc, width := m.width, lanes := ls,
              w := m.w, gen := s.genOf wk, issued := s.now, inst := inst }

/-- The checked accesses of one warp become one operation; what fails traps or parks. A form that acts once per warp stops every
active thread of the warp with its one access (R75, R77, R146). -/
def State.issueChecked (s : State) (m : MForm) (wk inst : Nat) (pc rpc : W64) (act : List Nat)
    (cs : List (Nat × Ask × Check)) : State × List TrapReq :=
  let sp := splitChecks cs
  let s1 := s.issueOp { m.opOf s wk inst pc sp.1 with ths := if m.elect then act else [] }
  let f := (s1.countWatch sp.2).failLanes wk pc rpc m.w sp.2
  if !m.elect then f
  else
    match sp.2 with
    | (_, _, .park _) :: _ => (act.foldl (fun s th => s.parkTo th pc rpc) (f.1.noteWaits wk act), f.2)
    | _ => (f.1, (f.2.map (fun r => act.map (fun th => { r with th := th }))).flatten)

/-- Of accesses that passed every check, those of other warps that write over an access of `wk`, from a higher lane (R151). -/
def overOf (wk : Nat) (wkOf : Nat → Nat) (cs : List (Nat × Ask × Check)) : List LaneAcc :=
  let oks := cs.filterMap (fun p => match p.2.2 with | .ok a => some a | _ => none)
  let mine := oks.filter (fun a => wkOf a.th == wk)
  oks.filter (fun a => wkOf a.th != wk && mine.any (fun b => decide (laneOfTh b.th < laneOfTh a.th)))

/-- An operation of a warp with the accesses that write over it (R151). -/
def MForm.under (m : MForm) (ls : List LaneAcc) : MForm := { m with op := { m.op with above := ls } }

/-- The shape of every memory form that acts per thread, or once per warp: per warp the accesses are formed and checked, `refine`
applies row 8, what passes is one operation, and what fails traps or parks (R75, R77, R139, R146). `full` holds the group back. -/
def memForm (i : Instr) (gd : Guard) (s : State) (m : MForm) (full : State → Go → List (Nat × Ask × Check) → Bool)
    (addr : State → Nat → Nat → W64) (data : State → Nat → Nat → BitVec 128 × W64)
    (refine : State → Nat → List (Nat × Ask × Check) → State × List (Nat × Ask × Check)) :
    Host.Outcome State Fault Refusal :=
  issue i gd s (fun x s =>
    let all := s.warpsOf x.ths
    let checksOf := fun wk =>
      let mine := x.act.filter (fun th => s.wkOf th == wk)
      (if m.elect then mine.take 1 else mine).map (fun th =>
        let d := data s wk th
        let q := m.ask (addr s wk th) d.1 d.2
        (th, q, s.check th q))
    if s.counterFull all m.w then .stall .counterFull
    else if m.queued && x.wks.any (fun wk => decide (32 ≤ s.queueLen wk)) then .stall .storeQueue
    else if full s x (all.map checksOf).flatten then .stall .storeQueue
    else
      let r := all.foldl (fun (p : State × List TrapReq) wk =>
        let rf := refine p.1 wk (checksOf wk)
        let above := if m.queued && !m.elect && decide (1 < all.length) then overOf wk s.wkOf (all.flatMap (fun w => (refine s w (checksOf w)).2)) else []
        let f := rf.1.issueChecked (m.under above) wk s.nid x.g.pc x.g.after (x.act.filter (fun th => s.wkOf th == wk)) rf.2
        (f.1, p.2 ++ f.2)) (s, [])
      .done r.1 r.2)

/-- A form that nothing but its counter and its queue holds back. -/
def neverFull : State → Go → List (Nat × Ask × Check) → Bool := fun _ _ _ => false

/-- A form without row 8. -/
def noRefine : State → Nat → List (Nat × Ask × Check) → State × List (Nat × Ask × Check) := fun s _ cs => (s, cs)

/-! Loads (R149). -/

/-- What LD, SLD, LDS and LDX ask. -/
def loadDesc (f : Me) (wh : Where) (scalar : Bool) : MForm :=
  { wh := wh, width := szBytes f.sz, align := if f.ord = .rlx then 1 else szBytes f.sz, isRead := true, isWrite := false,
    elect := scalar, queued := false, w := wOf f.w, chk := none,
    op := { baseOp .load with dst := some f.d, regs := szRegs f.sz, sdst := scalar, acq := acqOf f.ord f.scope,
                              byL2 := f.by_ || f.ord == .acq, rdist := f.rdist } }

/-- The shape of LD, SLD, LDS and LDX. -/
def loadForm (i : Instr) (f : Me) (s : State) (wh : Where) (scalar : Bool) : Host.Outcome State Fault Refusal :=
  memForm i f.g s (loadDesc f wh scalar) neverFull (fun s wk th => Mem.addr s wk th f) (fun _ _ _ => (0, 0)) noRefine

/-- LD (R149). -/
def execLd (f : Me) (s : State) : Host.Outcome State Fault Refusal := loadForm (.ld f) f s .global false
/-- SLD (R149): once per warp. -/
def execSld (f : Me) (s : State) : Host.Outcome State Fault Refusal := loadForm (.sld f) f s .global true
/-- LDS (R149). -/
def execLds (f : Me) (s : State) : Host.Outcome State Fault Refusal := loadForm (.lds f) f s .local_ false
/-- LDX (R143, R144, R149). -/
def execLdx (f : Me) (s : State) : Host.Outcome State Fault Refusal := loadForm (.ldx f) f s .group false

/-! Bound checks (R152, R182, R191). -/

/-- A context's bound register (R191). -/
def Ctx.bound (c : Ctx) (k : Nat) : Bound := (SMap.look c.bounds k).getD {}

/-- A bound register's field in a format: binary16 by round_rne, binary64 exactly, binary32 as it stands (R152, R170). -/
def boundIn (m : Fmt) (b : W32) : Nat := if m = .f32 then b.toNat else m.round .rne false (Fmt.f32.value b.toNat)

/-- One element against a bound: whether it is a violation, and what clamp stores (R152). -/
def boundElem (b : Bound) (m : Fmt) (x : Nat) : Bool × Nat :=
  let lo := boundIn m b.low
  let hi := boundIn m b.high
  let v := m.value x
  if v.isNan then (true, lo)
  else if v.lt (m.value lo) then (true, lo)
  else if (m.value hi).lt v then (true, hi)
  else (false, x)

/-- Elements against a bound: the violations and the stored elements under its action (R152). -/
def boundList (b : Bound) (m : Fmt) : List Nat → Nat × List Nat
  | [] => (0, [])
  | x :: xs =>
    let r := boundElem b m x
    let t := boundList b m xs
    (t.1 + r.1.toNat, (if b.act = 1 then r.2 else x) :: t.2)

/-- A bound register after n violations: STICKY set and COUNT up, saturating (R152, R191). -/
def Bound.hit (b : Bound) (n : Nat) : Bound :=
  if n = 0 then b else { b with sticky := true, count := BitVec.ofNat 32 (min (b.count.toNat + n) 0xFFFFFFFF) }

/-- The elements of a store's data (R152). -/
def storeElems (sz : Sz) (d : BitVec 128) : List Nat :=
  match sz with
  | .z16 => [d.toNat % 2 ^ 16]
  | .z32 => [elem 32 d.toNat 0]
  | .z64 => [elem 32 d.toNat 0, elem 32 d.toNat 1]
  | .z128 => (List.range 4).map (elem 32 d.toNat)
  | .z8 => []

/-- The format of a store's elements (R152). -/
def storeFmt (sz : Sz) : Fmt := if sz = .z16 then .f16 else .f32

/-- A store's data under CHK: the violations and the data stored (R152). -/
def boundApply (b : Bound) (sz : Sz) (d : BitVec 128) : Nat × BitVec 128 :=
  let r := boundList b (storeFmt sz) (storeElems sz d)
  (r.1, BitVec.ofNat 128 (joinElems (if sz = .z16 then 16 else 32) r.2))

/-- Violations charged to a context's bound register (R152). -/
def State.chargeBound (s : State) (ck k n : Nat) : State :=
  s.updCtx ck (fun c => { c with bounds := SMap.ins c.bounds k ((c.bound k).hit n) })

/-- The bound register that a warp last selected, as its context holds it (R152, R191, R192). -/
def State.boundOf (s : State) (wk : Nat) : Bound :=
  match SMap.look s.warps wk with
  | some w => (match s.gridOfTeam w.team with | some g => ((SMap.look s.ctxs g.ctx).getD {}).bound w.bsel | none => {})
  | none => {}

/-- Row 8 of R146: CHK on the accesses of one warp that passed the other rows, against the bound register it last selected. -/
def refineBound (chk : Bool) (sz : Sz) (s : State) (wk : Nat) (cs : List (Nat × Ask × Check)) :
    State × List (Nat × Ask × Check) :=
  match SMap.look s.warps wk with
  | none => (s, cs)
  | some w =>
    match s.gridOfTeam w.team with
    | none => (s, cs)
    | some g =>
      if !chk then (s, cs)
      else
        let b := s.boundOf wk
        let n := cs.foldl (fun n p => match p.2.2 with
          | .ok a => n + (boundApply b sz a.data).1
          | _ => n) 0
        (if n = 0 then s else s.chargeBound g.ctx w.bsel n,
         cs.map (fun p => match p.2.2 with
          | .ok a =>
            let r := boundApply b sz a.data
            if b.act = 2 ∧ r.1 ≠ 0 then (p.1, p.2.1, .trap 0x0B) else (p.1, p.2.1, .ok { a with data := r.2 })
          | _ => p))

/-- The elements of an STCMP or LDEXP that are checked against the bound (R154): those before the first that fails another row, and under
the trap action none past the first violation. -/
def boundReach (b : Bound) (sz : Sz) : List (Nat × Ask × Check) → Nat
  | [] => 0
  | p :: ps =>
    match p.2.2 with
    | .ok a => if b.act = 2 ∧ (boundApply b sz a.data).1 ≠ 0 then 1 else 1 + boundReach b sz ps
    | _ => 0

/-- Row 8 for elements that are checked one after the other until one fails (R152, R154). -/
def refineInOrder (chk : Bool) (sz : Sz) (s : State) (wk : Nat) (cs : List (Nat × Ask × Check)) : State × List (Nat × Ask × Check) :=
  let n := boundReach (s.boundOf wk) sz cs
  let rf := refineBound chk sz s wk (cs.take n)
  (rf.1, rf.2 ++ cs.drop n)

/-! Stores (R150 to R152). -/

/-- What ST, SST, STS and STX ask. -/
def storeDesc (f : Me) (wh : Where) (scalar : Bool) : MForm :=
  { wh := wh, width := szBytes f.sz, align := if f.ord = .rlx then 1 else szBytes f.sz, isRead := false, isWrite := true,
    elect := scalar, queued := true, w := wOf f.w, chk := if f.chk then some f.sz else none,
    op := { baseOp .store with rel := relOf f.ord f.scope, byL2 := true, rdist := f.rdist } }

/-- The shape of ST, SST, STS and STX: one store-queue entry for each warp. -/
def storeForm (i : Instr) (f : Me) (s : State) (wh : Where) (scalar : Bool) : Host.Outcome State Fault Refusal :=
  memForm i f.g s (storeDesc f wh scalar) neverFull (fun s wk th => Mem.addr s wk th f)
    (fun s wk th => (if scalar then BitVec.ofNat 128 ((s.sget wk f.b.toNat).toNat % 2 ^ (8 * szBytes f.sz))
                     else s.laneData th f.sz f.b, 0))
    (refineBound f.chk f.sz)

/-- ST (R150). -/
def execSt (f : Me) (s : State) : Host.Outcome State Fault Refusal := storeForm (.st f) f s .global false
/-- SST (R150): once per warp. -/
def execSst (f : Me) (s : State) : Host.Outcome State Fault Refusal := storeForm (.sst f) f s .global true
/-- STS (R150). -/
def execSts (f : Me) (s : State) : Host.Outcome State Fault Refusal := storeForm (.sts f) f s .local_ false
/-- STX (R143, R144, R150). -/
def execStx (f : Me) (s : State) : Host.Outcome State Fault Refusal := storeForm (.stx f) f s .group false

/-! Compacting store and expanding load (R153, R154). -/

/-- The elements of an STCMP or LDEXP that pass, and the remainder from the first that fails (R154). -/
def untilFail : List (Nat × Ask × Check) → List LaneAcc × List (Nat × Ask × Check)
  | [] => ([], [])
  | p :: ps =>
    match p.2.2 with
    | .ok a => let r := untilFail ps; (a :: r.1, r.2)
    | _ => ([], p :: ps)

/-- The remainder entry of an STCMP or LDEXP (R154, R227): KIND 5 with its base and first unperformed index, or KIND 1 while
parked on a miss. -/
def remainder (kind trap w gen idx : Nat) (pc base : W64) (rest : List (Nat × Ask × Check)) : REntry :=
  { mkEntry kind trap w gen pc (rest.map (fun p => (laneOfTh p.1, laneRec p.2.1 trap))) with
    idx := idx, aux := base, elems := maskOf (rest.map (fun p => laneOfTh p.1)) }

/-- The remainder stops together: traps with one entry, or parks with one (R154). -/
def State.stopRest (s : State) (wk : Nat) (pc rpc base : W64) (w idx : Nat) (rest : List (Nat × Ask × Check)) :
    State × List TrapReq :=
  match rest with
  | [] => (s, [])
  | p :: _ =>
    match p.2.2 with
    | .trap c =>
      let e := (s.countWatch [p]).pushEntry wk (remainder 5 c w (s.genOf wk) idx pc base rest)
      (e.1, rest.map (fun q => { th := q.1, code := c, info := p.2.1.addr, rpc := rpc, entry := some e.2 }))
    | _ =>
      let e := s.pushEntry wk (remainder 5 0 w (s.genOf wk) idx pc base rest)
      (rest.foldl (fun s q => s.parkTo q.1 pc rpc) e.1, [])

/-- STCMP and LDEXP at completion (R153, R154): element k at base + k × width for the k-th contributor in lane order. -/
def doneCompact (f : Me) (store : Bool) (s : State) (op : Nat) (r : Rdv) : State × List TrapReq :=
  match r.lowest with
  | none => (s, [])
  | some low =>
    let base := low.sa + f.ofs.signExtend 64
    let n := szBytes f.sz
    let asks := (r.actors.zip (List.range 32)).map (fun p =>
      let q : Ask := { wh := .global, addr := base + BitVec.ofNat 64 (p.2 * n), width := n, align := 1,
                       isRead := !store, isWrite := store,
                       data := BitVec.ofNat 128 (p.1.a.toNat + 2 ^ 64 * p.1.b.toNat) }
      (p.1.th, q, s.check p.1.th q))
    let rf := refineInOrder (store && f.chk) f.sz s r.wk asks
    let sp := untilFail rf.2
    let o : MemOp :=
      { baseOp (if store then .store else .load) with
        wk := r.wk, core := s.coreOfTh low.th, pc := r.pc, gen := s.genOf r.wk, issued := s.now, inst := s.nid,
        width := n, lanes := sp.1, dst := if store then none else some f.d, regs := if store then 0 else szRegs f.sz,
        byL2 := f.by_ || store, rdist := f.rdist }
    let s1 := rf.1.issueOp o
    -- the entry added at the first issue of the instance covers every member: it follows the operation from here on
    let mine := maskOf (sp.1.map (fun l => laneOfTh l.th))
    let s2 := s1.updWarp r.wk (fun w => { w with entries := releaseAll (w.entries.map (fun e =>
      if e.op = op then { e with op := rf.1.nid, left := mine } else e)) })
    let s3 := if store && !r.actors.isEmpty then s2.sset r.wk f.d.toNat (BitVec.ofNat 64 r.actors.length) else s2
    s3.stopRest r.wk r.pc (r.pc + 8) base (wOf f.w) sp.1.length sp.2

/-- The counter entry of a rendezvous form, added at the first issue of its instance (R96 rule 7). -/
def State.rdvEntry (s : State) (w wk id : Nat) : State := if w ≤ 5 then s.addEntry wk w id 0xFFFFFFFF else s

/-- STCMP and LDEXP (R153): rendezvous of the whole warp. -/
def compactForm (i : Instr) (f : Me) (store : Bool) (s : State) : Host.Outcome State Fault Refusal :=
  rendezvous i f.g s
    { w := wOf f.w
      mask := fun _ _ => 0xFFFFFFFF
      contrib := fun s _ th =>
        let d := s.laneData th f.sz f.b
        if store then { a := d.setWidth 64, b := (d >>> 64).setWidth 64 } else {}
      scalars := fun s wk => (s.sget wk f.a.toNat, 0)
      opened := fun s wk id => s.rdvEntry (wOf f.w) wk id
      complete := doneCompact f store }

/-- STCMP (R153, R154). -/
def execStcmp (f : Me) (s : State) : Host.Outcome State Fault Refusal := compactForm (.stcmp f) f true s
/-- LDEXP (R153, R154). -/
def execLdexp (f : Me) (s : State) : Host.Outcome State Fault Refusal := compactForm (.ldexp f) f false s

/-! Prefetch, L1 invalidation, fences (R155 to R157). -/

/-- PREF (R155): a request that is dropped where an access would trap or miss; it never traps. A watchpoint and a range lock
never touch it. -/
def execPref (f : Me) (s : State) : Host.Outcome State Fault Refusal :=
  memForm (.pref f) f.g s
    { wh := .global, width := 1, align := 1, isRead := false, isWrite := false, elect := false, queued := false,
      w := wOf f.w, chk := none, op := { baseOp .pref with byL2 := f.by_, rdist := f.rdist } }
    neverFull (fun s wk th => Mem.addr s wk th f) (fun _ _ _ => (0, 0))
    (fun s _ cs => (s, cs.filter (fun p => match p.2.2 with
      | .ok a => (s.extentAt (s.coreOfTh p.1) a.addr.toNat).any (fun e => e.r)
      | _ => false)))

/-- The shape of LINV and FENCE: one operation for each warp that has an active thread, and for every warp present a counter
entry (R77, R156, R157). -/
def fenceForm (i : Instr) (f : Me) (s : State) (kind : MKind) : Host.Outcome State Fault Refusal :=
  issue i f.g s (fun x s =>
    let all := s.warpsOf x.ths
    if s.counterFull all (wOf f.w) then .stall .counterFull
    else .done (all.foldl (fun s wk =>
      if x.wks.contains wk then
        s.issueOp { baseOp kind with
          wk := wk, core := x.g.core, pc := x.g.pc, gen := s.genOf wk, issued := s.now, inst := s.nid,
          ths := x.act.filter (fun th => s.wkOf th == wk), w := wOf f.w, acq := if kind = .fence then acqOf f.ord f.scope else none
          rel := if kind = .fence then relOf f.ord f.scope else none }
      else if wOf f.w ≤ 5 then s.addEntry wk (wOf f.w) 0 0 else s) s) [])

/-- LINV (R156). -/
def execLinv (f : Me) (s : State) : Host.Outcome State Fault Refusal := fenceForm (.linv f) f s .linv
/-- FENCE (R157). -/
def execFence (f : Me) (s : State) : Host.Outcome State Fault Refusal := fenceForm (.fence f) f s .fence

end Sys2Proof.Machine
end

