-- ==== Sys2Proof/Machine/Perform.lean ====
section
/-!
DEFINITION. How accesses are performed (R77, R149, R150, R156, R157, R163, R234 to R243, R427): loads return, store-queue entries drain
into the merge point, merged writes reach their cluster and physical memory, fences complete, faulting answers arrive.
-/
namespace Sys2Proof.Machine

/-- The bytes an access has in each of its two sectors (R163). -/
def LaneAcc.n1 (l : LaneAcc) (width : Nat) : Nat := min width (32 - l.addr.toNat % 2 ^ 18 % 32)

/-- The pieces of an access: first address and length (R163). -/
def LaneAcc.pieces (l : LaneAcc) (width : Nat) : List (Nat × Nat) :=
  let n := l.n1 width
  if n < width then [(l.pa, n), (l.pa2, width - n)] else [(l.pa, n)]

/-- Two lists of pieces share a byte. -/
def piecesMeet (xs ys : List (Nat × Nat)) : Bool :=
  xs.any (fun x => ys.any (fun y => decide (x.1 < y.1 + y.2 ∧ y.1 < x.1 + x.2)))

/-- Two accesses touch one byte of one space. -/
def accMeet (a : LaneAcc) (wa : Nat) (b : LaneAcc) (wb : Nat) : Bool :=
  decide (a.space = b.space) && piecesMeet (a.pieces wa) (b.pieces wb)

/-- A kind that reads memory for its thread. -/
def MKind.reads : MKind → Bool
  | .load | .atomic | .cas => true
  | _ => false

/-- Older operations of the same warp, in program order. -/
def State.older (s : State) (id wk : Nat) : List (Nat × MemOp) := s.ops.filter (fun e => e.1 < id && e.2.wk == wk)

/-- An older fence or acquire of the warp holds every later access back; an older LINV holds later loads (R156, R157, R241). -/
def State.heldBack (s : State) (id : Nat) (o : MemOp) : Bool :=
  (s.older id o.wk).any (fun e => e.2.kind == .fence || (e.2.acq.isSome && e.2.kind.reads) || (e.2.kind == .linv && o.kind == .load))

/-- An older load or atomic of the warp to the same bytes is performed first (R236). -/
def State.sameBytesFirst (s : State) (id : Nat) (o : MemOp) (l : LaneAcc) : Bool :=
  (s.older id o.wk).any (fun e => e.2.kind.reads && e.2.lanes.any (fun k => accMeet k e.2.width l o.width))

/-- R239: while a warp has an access that a younger one of its own has passed, the core's other warps perform none. -/
def State.coreHeld (s : State) (o : MemOp) : Bool := s.ops.any (fun e => e.2.late && e.2.core == o.core && e.2.wk != o.wk)

/-- A declared use that orders no other access (R160, R245). -/
def useLoose : Use → Bool
  | .unp | .nord | .qnt => true
  | _ => false

/-- A younger access of the warp has been performed: its older loads and atomics are overtaken, and, unless it is a load, its older stores
(R239). An atomic whose use orders no other access is not. -/
def State.overtake (s : State) (id wk : Nat) (load : Bool) : State :=
  { s with ops := SMap.mapV (fun k e =>
      if k < id && e.wk == wk && ((e.kind.reads && !useLoose e.use_) || (e.kind == .store && !load)) then { e with late := true } else e) s.ops }

/-- Writes of others that a reader of a core must see performed before it reads their bytes (R234, R238, R239): merged in its core
by another warp, or performed at its cluster's scope. -/
def State.pendBlocks (s : State) (wk core : Nat) (ps : List (Nat × Nat)) : Bool :=
  s.pend.any (fun e => piecesMeet [(e.2.pa, e.2.bytes.length)] ps
    && ((e.2.core == core && e.2.wk != wk) || (e.2.stage == .clus && e.2.core / 4 == core / 4 && e.2.core != core)))

/-- The byte of a store at an address, if the store covers it. -/
def storeByte (o : MemOp) (sp : Space) (pa : Nat) : Option Byte :=
  o.lanes.foldl (fun r l =>
    if l.space ≠ sp then r
    else
      let n := l.n1 o.width
      let at_ := fun k => (leBytes o.width l.data.toNat)[k]?
      if l.pa ≤ pa ∧ pa < l.pa + n then at_ (pa - l.pa)
      else if l.pa2 ≤ pa ∧ pa < l.pa2 + (o.width - n) then at_ (n + (pa - l.pa2))
      else r) none

/-- The newest byte the warp has queued before an operation (R149). -/
def State.queuedByte (s : State) (id wk : Nat) (sp : Space) (pa : Nat) : Option Byte :=
  (s.older id wk).foldl (fun r e =>
    if e.2.kind = .store then (match storeByte e.2 sp pa with | some b => some b | none => r) else r) none

/-- The newest byte the warp has in the merge point. -/
def State.mergedByte (s : State) (wk pa : Nat) : Option Byte :=
  s.pend.foldl (fun r e => if e.2.wk = wk ∧ e.2.pa ≤ pa ∧ !e.2.hole.contains pa then
    (match e.2.bytes[pa - e.2.pa]? with | some b => some b | none => r) else r) none

/-- The key of an L1 sector. -/
def l1Key (core pa : Nat) : Nat := core * 2 ^ 45 + pa / 32

/-- What a warp's load reads at a byte: its own newest queued store, its own merged store, an L1 copy if it is served from one, or
memory (R149, R237). -/
def State.readByte (s : State) (id wk core : Nat) (useL1 : Bool) (sp : Space) (pa : Nat) : Byte :=
  match s.queuedByte id wk sp pa with
  | some b => b
  | none =>
    match sp with
    | .scr owner => s.scrByte owner pa
    | .glob =>
      match s.mergedByte wk pa with
      | some b => b
      | none =>
        match useL1, SMap.look s.l1 (l1Key core pa) with
        | true, some c => (c.bytes[pa % 32]?).getD 0
        | _, _ => s.byte pa

/-- A piece may be served from L1: its sector is there, filled with the piece's bytes, and the warp has stored none of them since (R149, R237). -/
def State.l1Serves (s : State) (o : MemOp) (p : Nat × Nat) : Bool :=
  !o.byL2 &&
    (match SMap.look s.l1 (l1Key o.core p.1) with
     | some c => !(c.stored.any (fun q => q.1 == o.wk && decide (p.1 ≤ q.2 ∧ q.2 < p.1 + p.2)))
         && !(c.holes.any (fun a => decide (p.1 ≤ a ∧ a < p.1 + p.2)))
     | none => false)

/-- The sector of a piece is uncorrectable and the piece is read from memory (R148). -/
def State.badPiece (s : State) (p : Nat × Nat) : Bool := s.badBytes p.1 p.2

/-- The teams placed on a core. -/
def State.teamsOn (s : State) (c : Nat) : List (Nat × Team) := s.teams.filter (fun e => e.2.core == c && e.2.at_ == .placed)

/-- The grids of the teams placed on a core, one for each team. -/
def State.gridsOn (s : State) (c : Nat) : List Grid := (s.teamsOn c).filterMap (fun e => SMap.look s.grids e.2.grid)

/-- A team has exited: its warps are freed. -/
def Team.isOver (t : Team) : Bool := t.at_ == .retired || t.at_ == .retiring

/-- The teams of a team's cluster group (R258). -/
def State.mates (s : State) (tk : Nat) : List (Nat × Team) :=
  match SMap.look s.teams tk with
  | none => []
  | some t =>
    let k := max ((SMap.look s.grids t.grid).map Grid.cg |>.getD 1) 1
    s.teams.filter (fun e => e.2.grid == t.grid && e.2.idx / k == t.idx / k)

/-- Scratchpad bytes that exited teams still hold on a core, since a team of their cluster group has not exited (R144). -/
def State.heldScratch (s : State) (c : Nat) : Nat :=
  ((s.teams.filter (fun e => e.2.isOver && e.2.core == c)).map (fun e =>
    match SMap.look s.grids e.2.grid with
    | some g => if 1 < g.cg && (s.mates e.1).any (fun m => !m.2.isOver) then g.scratch else 0
    | none => 0)).sum

/-- Scratchpad bytes that a core's SRAM holds (R144, R256, R269): of the teams placed there, of exited ones, and of the segment pinned there. -/
def State.scratchOn (s : State) (c : Nat) : Nat :=
  (((s.gridsOn c).filter (fun g => !g.travel)).map Grid.scratch).sum + s.heldScratch c
    + ((((s.coreOf c).seg.bind (fun p => SMap.look s.grids p.1))).map Grid.scratch).getD 0

/-- The 128-byte lines a core's L1 holds: 256 KB less the scratchpad's 32 KB steps (R256). -/
def State.l1Lines (s : State) (core : Nat) : Nat := (262144 - 32768 * min 7 ((s.scratchOn core + 32767) / 32768)) / 128

/-- Where RDIST inserts a line (R149). -/
def rrpvOf : Rdist → Nat
  | .near => 0
  | .mid => 1
  | .far => 2
  | .stream => 3

/-- The lines that stand in a core's L1, each with its prediction. -/
def State.l1Held (s : State) (core : Nat) : List (Nat × Nat) :=
  ((s.l1.filter (fun e => e.1 / 2 ^ 45 == core)).map (fun e => (e.1 / 4, e.2.rrpv))).eraseDups

/-- A line of a core's L1 predicted anew (R149). -/
def State.predictL1 (s : State) (core pa n : Nat) : State :=
  { s with l1 := SMap.mapV (fun k (c : L1Sec) => if k / 4 = l1Key core pa / 4 then { c with rrpv := n } else c) s.l1 }

/-- Room for one more line in a core's L1 (R149, R256): where it is full a line predicted to be used last gives way, the others moved on as
far; which of several is free (assumption 129). -/
def State.roomL1 (s : State) (core pa : Nat) : State :=
  let held := s.l1Held core
  if held.any (fun e => e.1 == l1Key core pa / 4) || decide (held.length < s.l1Lines core) then s
  else
    let f := s.free
    let top := (held.map Prod.snd).foldl max 0
    let last := held.filter (fun e => e.2 == top)
    match last[f.1.toNat % max last.length 1]? with
    | some v => { f.2 with l1 := SMap.mapV (fun k (c : L1Sec) => if k / 2 ^ 45 = core then { c with rrpv := c.rrpv + (3 - top) } else c)
                             (SMap.keep (fun k _ => decide (k / 4 ≠ v.1)) f.2.l1) }
    | none => s

/-- A sector filled into L1 by a request that may use it, its line at the prediction of RDIST, or at 0 where it stands there already (R149,
R155, R237). A merged write that memory does not hold yet is newer than the copy: for its own warp always, and for the others where the
core could read it (R237, R251). -/
def State.fillL1 (s : State) (core pa : Nat) (r : Rdist) : State :=
  let near := s.pend.filter (fun e => e.2.pa / 32 == pa / 32 && (e.2.core == core || (e.2.stage == .clus && e.2.core / 4 == core / 4)))
  let bytes := fun (e : Nat × Pend) => upFrom e.2.pa e.2.bytes.length
  let mine := (near.filter (fun e => e.2.core == core)).flatMap (fun e => (bytes e).map (fun a => (e.2.wk, a)))
  let n := if (s.l1Held core).any (fun e => e.1 == l1Key core pa / 4) then 0 else rrpvOf r
  let s1 := s.roomL1 core pa
  let sec : L1Sec := { bytes := s1.bytesAt (pa / 32 * 32) 32, stored := mine, holes := near.flatMap bytes, rrpv := n }
  State.predictL1 { s1 with l1 := SMap.ins s1.l1 (l1Key core pa) sec } core pa n

/-- The registers of a lane written with a load's bytes, no longer busy (R140, R149). -/
def State.writeBack (s : State) (o : MemOp) (l : LaneAcc) (bs : List Byte) : State :=
  let x := ofLeBytes bs
  match o.dst with
  | none => s
  | some d =>
    if o.sdst then { s.sset o.wk d.toNat (BitVec.ofNat 64 x) with sbusy := SMap.del s.sbusy (skey o.wk d.toNat) }
    else if d = 255 then s
    else
      let s1 := (upFrom 0 o.regs).foldl (fun s k => s.vset l.th (d.toNat + k) (BitVec.ofNat 32 (elem 32 x k))) s
      { s1 with vbusy := (upFrom d.toNat o.regs).foldl (fun m r => SMap.del m (vkey l.th r)) s1.vbusy }

/-- Registers of lanes that will never be written are no longer busy. -/
def State.unbusy (s : State) (o : MemOp) (ths : List Nat) : State :=
  match o.dst with
  | none => s
  | some d =>
    if o.sdst then { s with sbusy := SMap.del s.sbusy (skey o.wk d.toNat) }
    else if d = 255 then s
    else { s with vbusy := ths.foldl (fun m th => (upFrom d.toNat o.regs).foldl (fun m r => SMap.del m (vkey th r)) m) s.vbusy }

/-- A thread that waits at its EXIT leaves once its last global answer is in (R109). -/
def State.exitIfDone (s : State) (th : Nat) : State :=
  match SMap.look s.threads th with
  | some t => if t.stat = .exiting && !s.awaitsAnswer th then s.exitThread th else s
  | none => s

/-- Lanes of an operation are done: they leave it, its counter entry, and it ends with its last lane (R77). -/
def State.lanesDone (s : State) (id : Nat) (ths : List Nat) : State :=
  match SMap.look s.ops id with
  | none => s
  | some o =>
    let rest := o.lanes.filter (fun l => !ths.contains l.th)
    let s1 := { s with ops := if rest.isEmpty then SMap.del s.ops id else SMap.ins s.ops id { o with lanes := rest } }
    let s2 := s1.answer o.wk id (if rest.isEmpty then 0xFFFFFFFF else maskOf (ths.map laneOfTh))
    ths.foldl (fun s th => s.exitIfDone th) s2

/-- A context whose hard halt has begun drops returns that carry an older generation tag (R226, R365). -/
def State.dropsReturn (s : State) (o : MemOp) : Bool := decide (s.genOf o.wk ≠ o.gen)

/-- A load waits for the warp's queued stores: an older store is a release, or the load is an acquire (R239). -/
def State.storesFirst (s : State) (id : Nat) (o : MemOp) : Bool :=
  (s.older id o.wk).any (fun e => e.2.kind == .store && (e.2.rel.isSome || o.acq.isSome))

/-- A piece of a load may not be performed yet (R156, R157, R236, R238, R239, R241). -/
def State.loadBlocked (s : State) (id : Nat) (o : MemOp) (l : LaneAcc) (p : Nat × Nat) (fromL1 : Bool) : Bool :=
  s.heldBack id o || s.sameBytesFirst id o l
    || (!fromL1 && (s.coreHeld o || s.storesFirst id o || (l.space == .glob && s.pendBlocks o.wk o.core [p])))

/-- A lane of a load whose read finds an uncorrectable sector answers with DATA_ERROR (R148, R427). DESIGN CHOICE
(log 154): so does one whose bytes all come from its own warp's queued stores. -/
def State.markBad (s : State) (id : Nat) (o : MemOp) (l : LaneAcc) (l1 : Bool) : LaneAcc :=
  if l.space == .glob && (l.pieces o.width).any (fun p => s.badPiece p && !(l1 && s.l1Serves o p) && !s.loadBlocked id o l p false) then
    { l with flt := 0x10 }
  else l

/-- One piece of one lane of a load is performed: its value is fixed (R149, R163, R236). -/
def State.loadPiece (s : State) (id : Nat) (o : MemOp) (l : LaneAcc) (k : Nat) (l1 : Bool) : Option (List Byte) :=
  match (l.pieces o.width)[k]? with
  | none => none
  | some p =>
    let fromL1 := l1 && l.space == .glob && s.l1Serves o p
    if s.loadBlocked id o l p fromL1 || (l.space == .glob && !fromL1 && s.badPiece p) then none
    else some ((upFrom p.1 p.2).map (s.readByte id o.wk o.core fromL1 l.space))

/-- One lane of a load after the pieces named are performed where they can be. -/
def State.loadLane (s : State) (id : Nat) (o : MemOp) (l : LaneAcc) (pieces : Nat) (l1 : Bool) : LaneAcc :=
  let l := s.markBad id o l l1
  let g1 := if l.got1.isNone && l.flt == 0 && pieces % 2 = 1 then s.loadPiece id o l 0 l1 else l.got1
  let g2 := if l.got2.isNone && l.flt == 0 && decide (pieces / 2 % 2 = 1) then s.loadPiece id o l 1 l1 else l.got2
  { l with got1 := g1, got2 := g2 }

/-- The bytes of a lane whose pieces are all performed. -/
def LaneAcc.bytes? (l : LaneAcc) (width : Nat) : Option (List Byte) :=
  match l.got1, l.got2 with
  | some a, some b => some (a ++ b)
  | some a, none => if l.n1 width < width then none else some a
  | none, _ => none

/-- LOAD_RETURN for a load (R77, R149): the named pieces of the named lanes are performed; lanes whose pieces are all in write
their registers. A load without BY that may allocate fills the sector when `fill` is set (R149). -/
def State.loadReturn (s : State) (id : Nat) (o : MemOp) (mask : W32) (pieces : Nat) (l1 fill : Bool) : State :=
  let mine := o.lanes.filter (fun l => laneBit mask (laneOfTh l.th))
  let s1 := mine.foldl (fun s l =>
    match SMap.look s.ops id with
    | none => s
    | some o =>
      let l' := s.loadLane id o l pieces l1
      let s1 := { s with ops := SMap.ins s.ops id { o with lanes := o.lanes.map (fun k => if k.th = l.th then l' else k) } }
      -- a piece that L1 serves is outside the order of R239
      let cached := l1 && l.space == .glob && (l.pieces o.width).all (s.l1Serves o)
      let s1 := if l1 && l.space == .glob && o.rdist != .stream && l' ≠ l then
          ((l.pieces o.width).filter (s.l1Serves o)).foldl (fun s p => s.predictL1 o.core p.1 0) s1 else s1
      let s2 := if l' ≠ l && !cached then s1.overtake id o.wk true else s1
      let s3 := if fill && !o.byL2 && o.rdist != .stream && l.space == .glob && l' ≠ l then
          (l.pieces o.width).foldl (fun s p => if s.badPiece p then s else s.fillL1 o.core p.1 o.rdist) s2 else s2
      match (if l'.flt ≠ 0 then none else l'.bytes? o.width) with
      | some bs => if o.sdst then s3 else (s3.writeBack o l' bs).lanesDone id [l.th]
      | none => s3) s
  match SMap.look s1.ops id with
  | some o' =>
    if o'.sdst then
      (match o'.lanes.head? with
       | some l => (match (if l.flt ≠ 0 then none else l.bytes? o'.width) with
          | some bs => (s1.writeBack o' l bs).lanesDone id (o'.lanes.map LaneAcc.th)
          | none => s1)
       | none => s1)
    else s1
  | none => s1

/-! Stores (R150). -/

/-- Everything a release at a scope must wait for (R150, R241, R243, R245): older loads and atomics of the warp, and, beyond .core,
the core's merged writes, and at .pkg and .sys the cluster's. -/
def State.relReady (s : State) (id wk core : Nat) (sc : Scope) : Bool :=
  !((s.older id wk).any (fun e => e.2.kind.reads || e.2.kind == .store || e.2.wide))
    && (match sc with
        | .core => true
        | .clus => !(s.pend.any (fun e => e.2.core == core && e.2.stage == .core))
        | _ => !(s.pend.any (fun e => e.2.core == core || (e.2.stage == .clus && e.2.core / 4 == core / 4))))

/-- The head of a warp's store queue (R150). -/
def State.headStore (s : State) (wk : Nat) : Option (Nat × MemOp) :=
  s.ops.find? (fun e => e.2.wk == wk && e.2.kind == .store)

/-- A store that a CPYR of its warp waits for, in a warp that a hard halt has stopped: the CPYR runs to completion (R193), and loads that the
halt saves, to be performed again, hold the store back no longer unless they read its bytes (R236, R365). -/
def State.cpyrAhead (s : State) (id : Nat) (o : MemOp) : Bool :=
  s.dropsReturn o && s.eng.any (fun e => e.2.wk == o.wk && e.2.kind == 8 && decide (id < e.1))

/-- A store-queue entry may enter the merge point. -/
def State.mayDrain (s : State) (id : Nat) (o : MemOp) : Bool :=
  (!s.heldBack id o || s.cpyrAhead id o) && !o.lanes.any (fun l => s.sameBytesFirst id o l)
    && !s.coreHeld o
    && (match o.rel with
        | some sc => s.relReady id o.wk o.core sc || s.cpyrAhead id o
        | none => true)

/-- The warp's own stores are remembered in the core's L1 copies of their sectors (R149). -/
def State.markL1 (s : State) (core wk pa n : Nat) : State :=
  { s with l1 := SMap.upd s.l1 (l1Key core pa) (fun c => { c with stored := c.stored ++ (upFrom pa n).map (fun a => (wk, a)) }) }

/-- The lanes of one store cover a whole sector of global memory (R368). -/
def MemOp.coversSector (o : MemOp) (sec : Nat) : Bool :=
  (upFrom (32 * sec) 32).all (fun a => o.lanes.any (fun l => l.space == .glob &&
    (l.pieces o.width).any (fun p => decide (p.1 ≤ a ∧ a < p.1 + p.2))))

/-- The bytes of a piece that a higher lane of the same issue has written already: its warp's entry has left the queue (R151). -/
def State.holesOf (s : State) (o : MemOp) (l : LaneAcc) (p : Nat × Nat) : List Nat :=
  let done := o.above.filter (fun a => a.space == l.space && decide (laneOfTh l.th < laneOfTh a.th)
    && !s.ops.any (fun e => e.2.inst == o.inst && e.2.kind == .store && e.2.lanes.any (fun b => b.th == a.th)))
  (upFrom p.1 p.2).filter (fun x => done.any (fun a => (a.pieces o.width).any (fun q => decide (q.1 ≤ x ∧ x < q.1 + q.2))))

/-- One piece of a store enters the merge point; a scratchpad's bank takes it at once (R150, R151, R239). -/
def State.mergePiece (s : State) (id : Nat) (o : MemOp) (l : LaneAcc) (p : Nat × Nat) (bs : List Byte) : State :=
  let hole := s.holesOf o l p
  match l.space with
  | .scr owner =>
    if hole.isEmpty then s.putScr owner p.1 bs
    else ((upFrom p.1 p.2).zip bs).foldl (fun s x => if hole.contains x.1 then s else s.putScr owner x.1 [x.2]) s
  | .glob =>
    let n := s.newId
    let e : Pend := { wk := o.wk, th := l.th, core := o.core, pa := p.1, bytes := bs, stage := .core, va := l.addr,
                      data := l.data, pc := o.pc, w := o.w, op := id, full := o.coversSector (p.1 / 32), hole := hole, rdist := o.rdist }
    ({ n.2 with pend := SMap.ins n.2.pend n.1 e }).markL1 o.core o.wk p.1 p.2

/-- STORE_DRAIN (R150, R151): the head entry of a warp's queue enters the merge point, lane by lane, and completes (R77). -/
def State.storeDrain (s : State) (wk : Nat) : State :=
  match s.headStore wk with
  | none => s
  | some (id, o) =>
    if !s.mayDrain id o then s
    else
      let s1 := o.lanes.foldl (fun s l =>
        let bs := leBytes o.width l.data.toNat
        let n := l.n1 o.width
        let s := s.mergePiece id o l (l.pa, n) (bs.take n)
        if n < o.width then s.mergePiece id o l (l.pa2, o.width - n) (bs.drop n) else s) s
      (s1.overtake id wk false).lanesDone id (o.lanes.map LaneAcc.th)

/-- An open cell that a write touches (R146 row 7, R162). -/
def State.cellHit (s : State) (pa n : Nat) : Bool := s.cells.any (fun e => decide (pa < e.1 + 64 ∧ e.1 < pa + n))

/-- A merged write follows every earlier merged write of its core to the same bytes, and those that another core of its cluster has made
visible there (R236, R243, R251). -/
def State.pendFirst (s : State) (id : Nat) (p : Pend) : Bool :=
  s.pend.any (fun e => piecesMeet [(e.2.pa, e.2.bytes.length)] [(p.pa, p.bytes.length)] &&
    (if e.2.core = p.core then decide (e.1 < id)
     else decide (e.2.core / 4 = p.core / 4) && e.2.stage == .clus && (p.stage == .core || decide (e.1 < id))))

/-- The bytes of a sector that a merged write writes. -/
def Pend.mask (p : Pend) : W32 := maskOf (((upFrom p.pa p.bytes.length).filter (fun a => !p.hole.contains a)).map (fun a => a % 32))

/-- An uncorrectable sector has fresh codes once the last piece of a store that covers it whole is performed, or once stores of one thread
have covered it between them (R368, R389; assumption 148). -/
def State.freshen (s : State) (p : Pend) : State :=
  if !s.badPiece (p.pa, 1) || p.eng && !p.full then s
  else
    let k := 2 ^ 64 * p.th + p.pa / 32
    let m := SMap.read 0 s.heal k ||| p.mask
    if (p.full ∧ !s.pend.any (fun e => e.2.op == p.op && e.2.pa / 32 == p.pa / 32)) ∨ m = 0xFFFFFFFF then
      { s with bad := SMap.del s.bad (p.pa / 32), heal := SMap.keep (fun j _ => decide (j % 2 ^ 64 ≠ p.pa / 32)) s.heal }
    else { s with heal := SMap.ins s.heal k m }

/-- A store's thread has a piece that touches an open cell: none of its pieces is performed (R162). An engine's write is no store. -/
def State.pendCell (s : State) (p : Pend) : Bool :=
  !p.eng && s.pend.any (fun e => e.2.op == p.op && e.2.th == p.th && s.cellHit e.2.pa e.2.bytes.length)

/-- A merged write's bytes in physical memory, but for those a higher lane has written (R151). -/
def State.putBytes (s : State) (p : Pend) : State :=
  if p.hole.isEmpty then s.putMem p.pa p.bytes
  else ((upFrom p.pa p.bytes.length).zip p.bytes).foldl (fun s x => if p.hole.contains x.1 then s else s.setByte x.1 x.2) s

/-- WRITE_PERFORMED for a merged write (R150, R234, R236): it is performed at its cluster's scope, or at package scope by
physical memory; a write that touches an open cell is not performed (R162). -/
def State.writePerformed (s : State) (id : Nat) (pkg : Bool) : State :=
  match SMap.look s.pend id with
  | none => s
  | some p =>
    if s.pendFirst id p || s.pendCell p then s
    else if pkg then ({ s with pend := SMap.del s.pend id }.putBytes p).freshen p
    else { s with pend := SMap.ins s.pend id { p with stage := .clus } }

/-! Requests and fences (R155 to R157). -/

/-- A PREF's request is accepted or dropped, or a LINV's invalidation is done (R155, R156). -/
def State.requestDone (s : State) (id : Nat) (fill : Bool) : State :=
  match SMap.look s.ops id with
  | some o =>
    match o.kind with
    | .pref =>
      -- the whole 128-byte line, and none for .stream (R149, R155)
      let s1 := if fill && !o.byL2 && o.rdist != .stream then
          o.lanes.foldl (fun s l => (upFrom 0 4).foldl (fun s k =>
            let pa := l.pa / 128 * 128 + 32 * k
            if s.badPiece (pa, 1) then s else s.fillL1 o.core pa o.rdist) s) s else s
      s1.lanesDone id (o.lanes.map LaneAcc.th)
    | .linv =>
      { (s.answer o.wk id 0xFFFFFFFF) with ops := SMap.del s.ops id, l1 := SMap.keep (fun k _ => decide (k / 2 ^ 45 ≠ o.core)) s.l1 }
    | _ => s
  | none => s

/-- The context that a warp's threads run in. -/
def State.ctxOfWarp (s : State) (wk : Nat) : Option Nat := ((SMap.look s.warps wk).bind (fun w => s.gridOfTeam w.team)).map Grid.ctx

/-- An access of a warp's context that is older than an operation is not performed at .pkg scope (R209, R243; assumption 23). -/
def State.wideBusy (s : State) (id wk : Nat) : Bool :=
  let mine := fun w => s.ctxOfWarp w == s.ctxOfWarp wk
  s.ops.any (fun e => decide (e.1 < id) && (e.2.kind.reads || e.2.kind == .store) && mine e.2.wk)
    || s.pend.any (fun e => decide (e.2.op < id) && mine e.2.wk)

/-- A fence's condition (R157). -/
def State.fenceReady (s : State) (id : Nat) (o : MemOp) : Bool :=
  !(o.wide && s.wideBusy id o.wk) &&
  (match o.acq with
   | some _ => !((s.older id o.wk).any (fun e => e.2.kind == .load || (e.2.kind.reads && e.2.ret)))
   | none => true)
  && (match o.rel with
   | some sc => !((s.older id o.wk).any (fun e => e.2.kind == .store || e.2.kind == .atomic || e.2.kind == .cas))
      && (match sc with
          | .core => true
          | .clus => !(s.pend.any (fun e => e.2.core == o.core && e.2.stage == .core))
          | _ => !(s.pend.any (fun e => e.2.core == o.core || (e.2.stage == .clus && e.2.core / 4 == o.core / 4))))
   | none => true)
  && !((s.older id o.wk).any (fun e => e.2.kind == .fence))

/-- Fences whose condition holds complete (R157). -/
def State.settleFences (s : State) : State :=
  s.ops.foldl (fun s e =>
    match SMap.look s.ops e.1 with
    | some o => if o.kind = .fence && s.fenceReady e.1 o then { (s.answer o.wk e.1 0xFFFFFFFF) with ops := SMap.del s.ops e.1 } else s
    | none => s) s

/-! Faulting answers (R148, R427). -/

/-- The captured operand bytes of an access: 16 bytes, the second operand in the upper eight. -/
def capture (l : LaneAcc) (kind : MKind) : BitVec 128 :=
  if kind = .cas then BitVec.ofNat 128 (l.data.toNat % 2 ^ 64 + 2 ^ 64 * l.data2.toNat) else l.data

/-- A thread still runs. -/
def State.alive (s : State) (th : Nat) : Bool :=
  match SMap.look s.threads th with
  | some t => decide (t.stat ≠ .exited)
  | none => false

/-- Threads of one warp stopped by a faulting answer: one KIND 0 entry over the lanes `ls`, then the traps of `stop` (R427). -/
def State.deferFault (s : State) (wk code w : Nat) (pc : W64) (ls stop : List (Nat × W64 × BitVec 128)) : State :=
  match ls, stop.filter (fun l => s.alive l.1) with
  | l0 :: _, q :: qs =>
    let e := mkEntry 0 code w (s.genOf wk) pc
      (ls.map (fun l => (laneOfTh l.1, { addr := l.2.1, data := l.2.2, stat := BitVec.ofNat 64 code })))
    let p := s.pushEntry wk e
    -- a travelling thread's s62 is its own (R293)
    let info := fun (l : Nat × W64 × BitVec 128) => if wk % 2 = 1 then l.2.1 else l0.2.1
    p.1.deliver ((q :: qs).map (fun l => { th := l.1, code := code, info := info l, rpc := s.stopPoint l.1, entry := some p.2 }))
  | _, _ => s

/-- DEFERRED_FAULT for an operation (R427): its lanes whose answer is one fault stop with one entry; its registers stay unwritten. Lanes
of another fault follow with an event of their own. An SLD's fault stops the elected lane's thread alone, a choice of the model: R148 names
the issuing thread, and R427 every active thread for XOPEN and XCLOSE only (assumption 127). -/
def State.faultOp (s : State) (id : Nat) : State :=
  match SMap.look s.ops id with
  | none => s
  | some o =>
    match o.lanes.find? (fun l => l.flt ≠ 0) with
    | none => s
    | some b =>
      let bad := o.lanes.filter (fun l => l.flt = b.flt)
      let ths := bad.map LaneAcc.th
      let s0 := ths.foldl (fun (s : State) th => s.updThread th (fun t => if t.stat = .exiting then { t with stat := .held } else t)) s
      let s1 := (s0.unbusy o ths).lanesDone id ths
      let one := bad.map (fun l => (l.th, l.addr, capture l o.kind))
      if o.kind ≠ .xopen ∧ o.kind ≠ .xclose then s1.deferFault o.wk b.flt o.w o.pc one one
      else s1.deferFault o.wk b.flt o.w o.pc (one.take 1) (o.ths.map (fun th => (th, b.addr, 0)))

/-- DEFERRED_FAULT for a store that touches an open cell (R162, R427): every lane of it that does stops, and its pieces are gone. -/
def State.faultPend (s : State) (id : Nat) : State :=
  match SMap.look s.pend id with
  | none => s
  | some p =>
    let mine := s.pend.filter (fun e => e.2.op == p.op && s.pendCell e.2)
    if mine.isEmpty then s
    else
      let ths := (mine.map (fun e => e.2.th)).eraseDups
      let s1 := { s with pend := SMap.keep (fun _ e => !(e.op == p.op && ths.contains e.th)) s.pend }
      let ls := (ths.filter s.alive).filterMap (fun th =>
        (mine.find? (fun e => e.2.th == th)).map (fun e => (th, e.2.va, e.2.data)))
      s1.deferFault p.wk 0x15 p.w p.pc ls ls

end Sys2Proof.Machine
end

