-- ==== Sys2Proof/Machine/Regs.lean ====
section
/-!
DEFINITION. The device's control registers by selector (R232) and what the machine reads from them: partition ranges, the owner of
a granule, the power, wear, scrub and hang settings.
-/
namespace Sys2Proof.Machine

/-- The reset value of a register held by selector (R305, R317, R341 to R344, R380, R390, R406, R413). -/
def csrReset (sel : Nat) : W64 :=
  if sel / 0x1000 = 1 then (if sel % 0x100 = 0x20 then 0x0A00 else 0)
  else if sel / 0x1000 = 2 then
    (match sel % 0x100 with
     | 0x00 => 0x00000BB800400001
     | 0x01 => 64
     | 0x02 => 0x181818
     | 0x10 => 0x0000000A00640101
     | _ => 0)
  else match sel with
    | 0x3010 => 0x3F
    | 0x3020 => 0x3C000C01
    | 0x3030 => 0x00200008000A0890
    | _ => 0

/-- A register held by selector. -/
def State.csrGet (s : State) (sel : Nat) : W64 := (SMap.look s.csr sel).getD (csrReset sel)

/-- A register held by selector, written whole. -/
def State.csrSet (s : State) (sel : Nat) (x : W64) : State :=
  { s with csr := if x = csrReset sel then SMap.del s.csr sel else SMap.ins s.csr sel x }

/-- A field of a register. -/
def field (x : W64) (lo n : Nat) : Nat := x.toNat / 2 ^ lo % 2 ^ n

/-- PART_RANGE.BASE of a partition (R342). -/
def State.partBase (s : State) (p : Nat) : Nat := field (s.csrGet (0x1000 + 0x100 * p)) 0 10
/-- PART_RANGE.LIMIT of a partition (R342). -/
def State.partLimit (s : State) (p : Nat) : Nat := field (s.csrGet (0x1000 + 0x100 * p)) 16 11
/-- PART_CHAN of a partition (R343). -/
def State.partChan (s : State) (p : Nat) : W64 := s.csrGet (0x1001 + 0x100 * p)
/-- PART_COLOUR of a partition (R343). -/
def State.partColour (s : State) (p : Nat) : W64 := s.csrGet (0x1002 + 0x100 * p)
/-- PORTS of a partition (R343). -/
def State.partPorts (s : State) (p : Nat) : Nat := field (s.csrGet (0x1003 + 0x100 * p)) 0 16
/-- SEED of a partition (R344). -/
def State.partSeed (s : State) (p : Nat) : Nat := field (s.csrGet (0x1004 + 0x100 * p)) 0 32
/-- A partition holds a logical cluster. -/
def State.partHolds (s : State) (p c : Nat) : Bool := decide (s.partBase p ≤ c ∧ c < s.partLimit p)
/-- The partition that holds a logical cluster. -/
def State.partOf (s : State) (c : Nat) : Option Nat := (List.range 16).find? (fun p => s.partHolds p c)

/-- One bit of CRC-32C, reflected, polynomial 0x1EDC6F41. -/
def crcStep (c : Nat) : Nat := if c % 2 = 1 then (c / 2) ^^^ 0x82F63B78 else c / 2

/-- CRC-32C of bytes from an initial value, before the final inversion. -/
def crcBytes : Nat → List Byte → Nat
  | c, [] => c
  | c, b :: bs => crcBytes (crcStep (crcStep (crcStep (crcStep (crcStep (crcStep (crcStep (crcStep (c ^^^ b.toNat))))))))) bs

/-- CRC-32C with its final inversion (assumption 7). -/
def crc32c (init : Nat) (bs : List Byte) : Nat := crcBytes init bs ^^^ 0xFFFFFFFF

/-- The logical cluster whose service warp owns a physical address's 256-byte granule (R340). -/
def State.ownerOf (s : State) (p pa : Nat) : Nat :=
  s.partBase p + crc32c (s.partSeed p) (leBytes 5 (pa / 256)) % (max (s.partLimit p - s.partBase p) 1)

/-- The home slice, as an index into the partition's list of slices: colours ascending, six slices each (R339). -/
def State.homeSlice (s : State) (p pa : Nat) : Nat :=
  let cs := (List.range 64).filter (fun c => (s.partColour p).getLsbD c)
  let k := crc32c 0xFFFFFFFF (leBytes 6 (pa / 128)) % (max (6 * cs.length) 1)
  6 * ((cs[k / 6]?).getD 0) + k % 6

/-- The partition of a team. -/
def State.partOfTeam (s : State) (tk : Nat) : Nat := ((s.gridOfTeam tk).map (fun g => g.ctx / 8)).getD 0

/-- CL_LEVEL to CL_STATE's partition rule and every other selector's: the level a context needs (R232). -/
def levelNeeded (s : State) (r : SelRow) (p : Nat) : Nat :=
  match r.owner with
  | .ctx => 0
  | .part q => if q = p then 1 else 2
  | .die _ => 2
  | .dev => 2
  | .clus c => if s.partHolds p c then 1 else 2

/-- HANG_THRESH.EXP (R305). -/
def State.hangExp (s : State) : Nat := max (field (s.csrGet 0x3010) 0 5) 16
/-- HANG_THRESH.EN (R305). -/
def State.hangEn (s : State) : Bool := (s.csrGet 0x3010).getLsbD 5

end Sys2Proof.Machine
end

