-- ==== Sys2Proof/Machine/Atomic.lean ====
section
/-!
DEFINITION. Atomics and exact cells, opcodes 0xB0 to 0xB5 (R158 to R164), and the service warps that perform them at memory
(R300, R301, R244 to R246).
-/
namespace Sys2Proof.Machine

/-! Operations at memory (R158). -/

/-- The new memory value of an atomic at w bits: m the value before, b the operand (R158); xadd leaves memory as it is. -/
def aopNew (op : Aop) (w m b : Nat) : Nat :=
  let fm : Fmt := if w = 64 then .f64 else .f32
  match op with
  | .add => (m + b) % 2 ^ w
  | .fadd => fm.round .rne false (XR.add .rne (fm.value m) (fm.value b))
  | .xadd => m
  | .smin => if intOf true w b < intOf true w m then b else m
  | .smax => if intOf true w m < intOf true w b then b else m
  | .umin => min m b
  | .umax => max m b
  | .fmin => fminmaxNum fm false m b
  | .fmax => fminmaxNum fm true m b
  | .and => m &&& b
  | .or => m ||| b
  | .xor => m ^^^ b
  | .exch => b

/-- The memory value after one lane of an ATOM, ATOMS, ACAS or ACASS (R158). -/
def laneNew (o : MemOp) (l : LaneAcc) (m : Nat) : Nat :=
  let w := 8 * o.width
  let b := l.data.toNat % 2 ^ w
  if o.kind = .cas then (if m = b then l.data2.toNat % 2 ^ w else m) else aopNew o.aop w m b

/-! Exact cells (R161, R162). -/

/-- A cell just opened (R161). -/
def Cell.fresh (ctx : Nat) : Cell :=
  { sum := 0, nan := false, pinf := false, ninf := false, allNeg0 := true, any := false, ctx := ctx }

/-- A finite value in units of 2^−1074 (R161). -/
def cellUnits (neg : Bool) (m : Nat) (e : Int) : Int :=
  let n : Int := m * 2 ^ (e + 1074).toNat
  if neg then -n else n

/-- One xadd (R161). -/
def Cell.add (c : Cell) (x : XR) : Cell :=
  match x with
  | .nan => { c with nan := true, allNeg0 := false, any := true }
  | .inf neg => { c with pinf := c.pinf || !neg, ninf := c.ninf || neg, allNeg0 := false, any := true }
  | .fin neg m e => { c with sum := c.sum + cellUnits neg m e, allNeg0 := c.allNeg0 && neg && decide (m = 0), any := true }

/-- The binary64 a cell closes to (R161). -/
def Cell.result (c : Cell) : Nat :=
  if c.nan || (c.pinf && c.ninf) then Fmt.f64.nanCode
  else if c.pinf then Fmt.f64.infCode false false
  else if c.ninf then Fmt.f64.infCode true false
  else if c.sum = 0 then Fmt.f64.round .rne false (.fin (c.allNeg0 && c.any) 0 0)
  else Fmt.f64.round .rne false (.fin (decide (c.sum < 0)) c.sum.natAbs (-1074))

/-- The open cell that holds an address. -/
def State.cellAt (s : State) (pa : Nat) : Option Cell := SMap.look s.cells (pa / 64 * 64)

/-! Requests (R301). -/

/-- A kind that a service warp performs. -/
def MKind.served : MKind → Bool
  | .atomic | .cas | .xopen | .xclose => true
  | _ => false

/-- The cluster that serves a lane's access (R340). -/
def State.laneOwner (s : State) (l : LaneAcc) : Nat := s.ownerOf (s.partOfTeam (teamOfTh l.th)) l.pa

/-- The lanes of an operation that a cluster serves; XOPEN and XCLOSE are served whole by their first cell's. -/
def State.lanesAt (s : State) (o : MemOp) (c : Nat) : List LaneAcc :=
  match o.kind with
  | .xopen | .xclose =>
    (match o.lanes with
     | l :: _ => if s.laneOwner l = c then o.lanes else []
     | [] => [])
  | .atomic | .cas => o.lanes.filter (fun l => l.space == .glob && s.laneOwner l == c && l.got1.isNone && l.flt == 0)
  | _ => []

/-- The requests in a cluster's input queue (R301): the issues with lanes it has not served. -/
def State.requestsAt (s : State) (c : Nat) : List Nat :=
  ((s.ops.filter (fun e => e.2.kind.served && !e.2.held && !(s.lanesAt e.2 c).isEmpty)).map (fun e => e.2.inst)).eraseDups

/-- A request for one of some accesses would meet a full queue of 128 (R301). -/
def State.requestFull (s : State) (cs : List (Nat × Ask × Check)) : Bool :=
  cs.any (fun p => match p.2.2 with
    | .ok a => a.space == .glob && decide (128 ≤ (s.requestsAt (s.laneOwner a)).length)
    | _ => false)

/-- A request of the group would meet a full queue (R301). -/
def serviceFull (s : State) (_ : Go) (cs : List (Nat × Ask × Check)) : Bool := s.requestFull cs

/-! ATOM, ACAS, ATOMS, ACASS at issue (R142, R143, R145, R146, R158). -/

/-- What ATOM, ACAS, ATOMS and ACASS ask: aligned to their width, reading and writing. -/
def atomDesc (f : Ma) (wh : Where) (cas : Bool) : MForm :=
  { wh := wh, width := szBytes f.sz, align := szBytes f.sz, isRead := true, isWrite := true, elect := false, queued := false,
    w := wOf f.w, chk := none,
    op := { baseOp (if cas then .cas else .atomic) with
      dst := if f.ret then some f.d else none, regs := szRegs f.sz, acq := acqOf f.ord f.scope, rel := relOf f.ord f.scope,
      byL2 := true, aop := f.aop, use_ := f.use_, ret := f.ret } }

/-- The shape of ATOM, ACAS, ATOMS and ACASS. -/
def atomForm (i : Instr) (f : Ma) (s : State) (wh : Where) (cas : Bool) : Host.Outcome State Fault Refusal :=
  memForm i f.g s (atomDesc f wh cas) serviceFull (fun s wk th => Ma.addrOf s wk th f)
    (fun s _ th => (s.laneData th f.sz f.b, (s.laneData th f.sz f.c).setWidth 64)) noRefine

/-- ATOM (R158): .fadd raises DETERMINISM in a DET context (R164). -/
def execAtom (f : Ma) (s : State) : Host.Outcome State Fault Refusal :=
  if s.curCtx.det && f.aop == .fadd then trapAll (.atom f) f.g s 0x11 else atomForm (.atom f) f s .global false

/-- ACAS (R158): .spec raises DETERMINISM in a DET context (R164). -/
def execAcas (f : Ma) (s : State) : Host.Outcome State Fault Refusal :=
  if s.curCtx.det && f.use_ == .spec then trapAll (.acas f) f.g s 0x11 else atomForm (.acas f) f s .global true

/-- ATOMS (R158, R160): the determinism table names .fadd of ATOM alone (R164). -/
def execAtoms (f : Ma) (s : State) : Host.Outcome State Fault Refusal :=
  atomForm (.atoms f) f s .local_ false

/-- ACASS (R158, R160). -/
def execAcass (f : Ma) (s : State) : Host.Outcome State Fault Refusal := atomForm (.acass f) f s .local_ true

/-! XOPEN and XCLOSE at issue (R161, R162). -/

/-- The check of a whole range of n cells: the first cell that fails decides (R146). -/
def State.checkCells (s : State) (th : Nat) (base : W64) : Nat → Nat → List LaneAcc × Option (Ask × Check)
  | _, 0 => ([], none)
  | k, n + 1 =>
    let q : Ask := { wh := .global, addr := base + BitVec.ofNat 64 (64 * k), width := 64, align := 64, isRead := true, isWrite := true }
    match s.check th q with
    | .ok a => let r := s.checkCells th base (k + 1) n; (a :: r.1, r.2)
    | c => ([], some (q, c))

/-- What XOPEN and XCLOSE ask, once per warp. -/
def cellDesc (f : Ma) (opens : Bool) : MForm :=
  { wh := .global, width := 64, align := 64, isRead := true, isWrite := true, elect := true, queued := false, w := wOf f.w,
    chk := none, op := baseOp (if opens then .xopen else .xclose) }

/-- One warp's XOPEN or XCLOSE on n cells from a base, for its active threads: the range is checked cell by cell, then it is one
operation; what fails stops every active thread, its entry holding the base and the count (R146, R161, R427). -/
def State.issueCells (s : State) (m : MForm) (wk inst : Nat) (pc rpc base : W64) (n : Nat) (act : List Nat) :
    State × List TrapReq :=
  match act with
  | [] => ((if m.w ≤ 5 then s.addEntry wk m.w 0 0 else s), [])
  | th :: _ =>
    let r := s.checkCells th base 0 n
    match r.2 with
    | none => (s.issueOp { m.opOf s wk inst pc r.1 with ths := act }, [])
    | some (q, c) =>
      s.issueChecked m wk inst pc rpc act [(th, { q with addr := base, data := BitVec.ofNat 128 n }, c)]

/-- The shape of XOPEN and XCLOSE (R161, R162): S[B] outside 1 to 65,536 raises EXACT_CELL precisely, with an entry.
DESIGN CHOICE (log 153): this check comes before rows 1 to 6 of R146. -/
def cellForm (i : Instr) (f : Ma) (s : State) (opens : Bool) : Host.Outcome State Fault Refusal :=
  let m := cellDesc f opens
  issue i f.g s (fun x s =>
    let all := s.warpsOf x.ths
    -- each service warp that owns cells of a range has a request (R301)
    let asks := x.wks.flatMap (fun wk =>
      match x.act.find? (fun th => s.wkOf th == wk) with
      | some th => if (s.sget wk f.b.toNat).toNat ≤ 65536 then
          (s.checkCells th (s.sget wk f.a.toNat) 0 (s.sget wk f.b.toNat).toNat).1.map (fun a => (th, m.ask a.addr 0 0, Check.ok a)) else []
      | none => [])
    if s.counterFull all m.w then .stall .counterFull
    else if s.requestFull asks then .stall .storeQueue
    else
      let r := all.foldl (fun (p : State × List TrapReq) wk =>
        let act := x.act.filter (fun th => s.wkOf th == wk)
        let n := (s.sget wk f.b.toNat).toNat
        let base := s.sget wk f.a.toNat
        let bad := !act.isEmpty && decide (n = 0 ∨ 65536 < n)
        let q := m.ask base (BitVec.ofNat 128 n) 0
        let c := if bad then
            p.1.issueChecked m wk s.nid x.g.pc x.g.after act ((act.take 1).map (fun th => (th, q, .trap 0x15)))
          else p.1.issueCells m wk s.nid x.g.pc x.g.after base n act
        (c.1, p.2 ++ c.2)) (s, [])
      .done r.1 r.2)

/-- XOPEN (R161, R162). -/
def execXopen (f : Ma) (s : State) : Host.Outcome State Fault Refusal := cellForm (.xopen f) f s true
/-- XCLOSE (R161, R162). -/
def execXclose (f : Ma) (s : State) : Host.Outcome State Fault Refusal := cellForm (.xclose f) f s false

/-! Performing atomics (R159, R160, R244, R245, R301). -/

/-- A younger atomic of a warp may pass an older one (R160, R244, R245): at other bytes where one of them is .unp, .nord or .qnt; at the
same bytes, of other threads, two .com of one kind, operation and size, or with .unp. USE 0, .spec and .com keep their order otherwise. -/
def mayPass (o : MemOp) (l : LaneAcc) (e : MemOp) : Bool :=
  let hits := e.lanes.filter (fun k => accMeet k e.width l o.width)
  if hits.isEmpty then useLoose o.use_ || useLoose e.use_
  else !hits.any (fun k => k.th == l.th)
    && ((o.use_ == .com && e.use_ == .com && o.kind == e.kind && o.aop == e.aop && o.width == e.width)
      || o.use_ == .unp || e.use_ == .unp)

/-- A lane of a global atomic waits for something older of its own warp, or for a write of its core or cluster to its bytes. -/
def State.atomBlocked (s : State) (id : Nat) (o : MemOp) (l : LaneAcc) : Bool :=
  (s.older id o.wk).any (fun e =>
    match e.2.kind with
    | .load | .store => e.2.lanes.any (fun k => accMeet k e.2.width l o.width)
    -- a held .qnt keeps its place at its own bytes (R236, R245)
    | .atomic | .cas => if e.2.held then o.use_ != .qnt && e.2.lanes.any (fun k => accMeet k e.2.width l o.width) else !mayPass o l e.2
    | .xopen | .xclose => true
    | _ => false)
  || s.pend.any (fun e => piecesMeet [(e.2.pa, e.2.bytes.length)] (l.pieces o.width)
      && (e.2.core == o.core || (e.2.stage == .clus && e.2.core / 4 == o.core / 4)))

/-- A request's lanes may be sent and served (R156, R157, R239, R241). -/
def State.mayServe (s : State) (id : Nat) (o : MemOp) (ls : List LaneAcc) : Bool :=
  !s.heldBack id o && !s.coreHeld o && !ls.any (fun l => s.atomBlocked id o l)
    && (match o.rel with
        | some sc => s.relReady id o.wk o.core sc
        | none => true)

/-- The operations of one issue with the lanes a cluster serves. -/
def State.partsOf (s : State) (inst c : Nat) : List (Nat × MemOp × List LaneAcc) :=
  (s.ops.filter (fun e => e.2.inst == inst && e.2.kind.served && !e.2.held)).filterMap (fun e =>
    let ls := s.lanesAt e.2 c
    if ls.isEmpty then none else some (e.1, e.2, ls))

/-- A request is ready when every part of it is. -/
def State.requestReady (s : State) (inst c : Nat) : Bool := (s.partsOf inst c).all (fun p => s.mayServe p.1 p.2.1 p.2.2)

/-- Two requests of a core that a service warp may reorder (R160, R245, R301): one is .unp, or both are .com of one kind, operation and size
to one address; two accesses of one thread to the same bytes keep their order. -/
def reorders (ps qs : List (Nat × MemOp × List LaneAcc)) : Bool :=
  ps.all (fun p => qs.all (fun q =>
    !p.2.2.any (fun l => q.2.2.any (fun k => l.th == k.th && accMeet k q.2.1.width l p.2.1.width)) &&
    (p.2.1.use_ == .unp || q.2.1.use_ == .unp ||
      (p.2.1.use_ == .com && q.2.1.use_ == .com && p.2.1.kind == q.2.1.kind && p.2.1.aop == q.2.1.aop && p.2.1.width == q.2.1.width
        && p.2.2.all (fun l => q.2.2.all (fun k => l.pa == k.pa))))))

/-- An older request of the same core to the cluster goes first, unless the two may be reordered (R301). -/
def State.requestFirst (s : State) (inst c : Nat) : Bool :=
  match s.partsOf inst c with
  | (_, o, _) :: _ =>
    (s.requestsAt c).any (fun j => decide (j < inst) && s.requestReady j c &&
      (match s.partsOf j c with
       | (_, e, _) :: _ => e.core == o.core && !reorders (s.partsOf inst c) (s.partsOf j c)
       | [] => false))
  | [] => false

/-- One lane recorded in its operation. -/
def State.setLaneAcc (s : State) (id : Nat) (l : LaneAcc) : State :=
  { s with ops := SMap.upd s.ops id (fun o => { o with lanes := o.lanes.map (fun k => if k.th = l.th then l else k) }) }

/-- A lane's access found faulty when it is served (R146 row 7, R148): the trap its answer carries, 0 for none. -/
def State.serveFault (s : State) (o : MemOp) (l : LaneAcc) : Nat :=
  if o.aop = .xadd ∧ o.kind = .atomic then (if (s.cellAt l.pa).isSome then 0 else 0x15)
  else if s.cellHit l.pa o.width then 0x15
  else if s.badPiece (l.pa, o.width) then 0x10
  else 0

/-- One lane of a global atomic is applied at memory (R158, R159, R161). -/
def State.applyLane (s : State) (id : Nat) (o : MemOp) (l : LaneAcc) : State :=
  let w := 8 * o.width
  if o.aop = .xadd ∧ o.kind = .atomic then
    let fm : Fmt := if o.width = 8 then .f64 else .f32
    { s with cells := SMap.upd s.cells (l.pa / 64 * 64) (fun c => c.add (fm.value (l.data.toNat % 2 ^ w))) }
  else
    let m := s.memWord l.pa o.width
    let s1 := s.putMem l.pa (leBytes o.width (laneNew o l m))
    if o.ret then s1.setLaneAcc id { l with got1 := some (leBytes o.width m) } else s1

/-- One lane of a request is served: a faulty one is marked and has no effect; one without a returned value is complete. -/
def State.serveLane (s : State) (id : Nat) (o : MemOp) (l : LaneAcc) : State :=
  let code := s.serveFault o l
  if code ≠ 0 then s.setLaneAcc id { l with flt := code }
  else if o.use_ = .qnt then
    let s1 := s.answer o.wk id (maskOf [laneOfTh l.th])
    { s1 with ops := SMap.upd s1.ops id (fun o => { o with held := o.lanes.all (fun k => k.th == l.th || k.got1.isSome || k.flt != 0)
                                                           lanes := o.lanes.map (fun k => if k.th = l.th then { k with got1 := some [] } else k) }) }
  else
    let s1 := s.applyLane id o l
    if o.ret then s1 else s1.lanesDone id [l.th]

/-- The lanes of a request in ascending lane order, each with its operation (R159, R301). -/
def inLaneOrder (ps : List (Nat × MemOp × List LaneAcc)) : List (Nat × MemOp × LaneAcc) :=
  (List.range 32).flatMap (fun n => ps.flatMap (fun p =>
    (p.2.2.filter (fun l => laneOfTh l.th == n && p.2.1.kind != .xopen && p.2.1.kind != .xclose)).map (fun l => (p.1, p.2.1, l))))

/-- The lanes of a .qnt atomic that a service warp holds (R245). -/
def MemOp.qntLanes (o : MemOp) : List LaneAcc :=
  if o.use_ == .qnt && (o.kind == .atomic || o.kind == .cas) then o.lanes.filter (fun l => l.got1.isSome && l.flt == 0) else []

/-- Lanes that are applied leave their .qnt operation; it ends with its last lane. -/
def State.qntDone (s : State) (id : Nat) : State :=
  match SMap.look s.ops id with
  | some o =>
    let rest := o.lanes.filter (fun l => !(l.got1.isSome && l.flt == 0))
    { s with ops := if rest.isEmpty then SMap.del s.ops id else SMap.ins s.ops id { o with held := false, lanes := rest } }
  | none => s

/-- QNT_APPLY (R244, R245): the lanes of one instruction that its service warps hold are applied at memory in ascending lane order, whatever
their warps; an older one that is held goes first at the same bytes (R236). -/
def State.applyQnt (s : State) (id : Nat) : State :=
  match SMap.look s.ops id with
  | some o =>
    let ps := (s.ops.filter (fun e => e.2.inst == o.inst && !e.2.qntLanes.isEmpty)).map (fun e => (e.1, e.2, e.2.qntLanes))
    let first := ps.any (fun p => (s.older p.1 p.2.1.wk).any (fun e => e.2.inst != o.inst && e.2.qntLanes.any (fun k =>
      p.2.2.any (fun l => accMeet k e.2.width l p.2.1.width))))
    if o.qntLanes.isEmpty || first then s
    else ps.foldl (fun s p => s.qntDone p.1) ((inLaneOrder ps).foldl (fun s p => s.applyLane p.1 p.2.1 p.2.2) s)
  | none => s

/-- .qnt atomics whose 4,096 fabric cycles are over are applied (R245). -/
def State.settleQnt (s : State) : State :=
  s.ops.foldl (fun s e => if !e.2.qntLanes.isEmpty && decide (e.2.issued + 4096 * 40 ≤ s.now) then s.applyQnt e.1 else s) s

/-- Every .qnt atomic that a service warp holds is applied, where one of them touches a cell to be opened (R162). -/
def State.flushQnt (s : State) (cells : List Nat) : State :=
  if s.ops.any (fun e => e.2.qntLanes.any (fun l => cells.any (fun c => decide (l.pa < c + 64 ∧ c < l.pa + e.2.width)))) then
    s.ops.foldl (fun s e => s.applyQnt e.1) s
  else s

/-- XOPEN at the service warps (R161, R162): every cell or none. A .qnt atomic accepted before it is applied first. -/
def State.serveOpen (s0 : State) (id : Nat) (o : MemOp) : State :=
  let s := s0.flushQnt (o.lanes.map LaneAcc.pa)
  let ctx := match o.lanes with | l :: _ => ((s.gridOfTeam (teamOfTh l.th)).map Grid.ctx).getD 0 | [] => 0
  let own := fun c => (s.cells.filter (fun e => s.ownerOf (e.2.ctx / 8) e.1 == c)).length
  let adds := fun c => (o.lanes.filter (fun l => s.laneOwner l == c)).length
  let tooMany := (o.lanes.map s.laneOwner).eraseDups.any (fun c => decide (1024 < own c + adds c))
  if tooMany || o.lanes.any (fun l => (s.cellAt l.pa).isSome) then
    { s with ops := SMap.upd s.ops id (fun o => { o with lanes := (o.lanes.take 1).map (fun l => { l with flt := 0x15, data := BitVec.ofNat 128 o.lanes.length }) }) }
  else
    ({ s with cells := o.lanes.foldl (fun (m : SMap Cell) (l : LaneAcc) => SMap.ins m l.pa (Cell.fresh ctx)) s.cells } : State).lanesDone id (o.lanes.map LaneAcc.th)

/-- XCLOSE of one cell (R161): its result, then zeros. -/
def State.closeCell (s : State) (pa : Nat) (c : Cell) : State :=
  let s1 := ({ s with cells := SMap.del s.cells pa }).putMem pa (leBytes 8 c.result ++ List.replicate 56 0)
  { s1 with bad := SMap.del (SMap.del s1.bad (pa / 32)) (pa / 32 + 1) }

/-- XCLOSE at the service warps (R161, R162): every cell or none. -/
def State.serveClose (s : State) (id : Nat) (o : MemOp) : State :=
  if o.lanes.any (fun l => (s.cellAt l.pa).isNone) then
    { s with ops := SMap.upd s.ops id (fun o => { o with lanes := (o.lanes.take 1).map (fun l => { l with flt := 0x15, data := BitVec.ofNat 128 o.lanes.length }) }) }
  else
    (o.lanes.foldl (fun s l => match SMap.look s.cells l.pa with
      | some c => s.closeCell l.pa c
      | none => s) s).lanesDone id (o.lanes.map LaneAcc.th)

/-- One part of a request. -/
def State.servePart (s : State) (p : Nat × MemOp × List LaneAcc) : State :=
  match p.2.1.kind with
  | .xopen => s.serveOpen p.1 p.2.1
  | .xclose => s.serveClose p.1 p.2.1
  | _ => s

/-- SERVICE_WARP_REQUEST (R159, R160, R301): a service warp takes the request of one issue, if it may be served, and applies its lanes
consecutively. -/
def State.serveRequest (s : State) (inst c : Nat) : State :=
  let ps := s.partsOf inst c
  if ps.isEmpty || !s.requestReady inst c || s.requestFirst inst c then s
  else
    let s1 := (inLaneOrder ps).foldl (fun s p => s.serveLane p.1 p.2.1 p.2.2) s
    let s2 := ps.foldl State.servePart s1
    ps.foldl (fun s p => s.overtake p.1 p.2.1.wk false) s2

/-- The old values of a returning atomic arrive (R77, R160): the named lanes' registers are written. -/
def State.atomReturn (s : State) (id : Nat) (o : MemOp) (mask : W32) : State :=
  (o.lanes.filter (fun l => laneBit mask (laneOfTh l.th) && l.flt == 0)).foldl (fun s l =>
    match l.got1 with
    | some bs => (s.writeBack o l bs).lanesDone id [l.th]
    | none => s) s

/-- A scratchpad atomic of a warp waits for its older scratchpad accesses, for older atomics that its use keeps it behind, and as any
access does (R160, R239, R241, R244). -/
def State.bankWaits (s : State) (id : Nat) (o : MemOp) : Bool :=
  (s.older id o.wk).any (fun e => match e.2.kind with
    | .load | .store => e.2.lanes.any (fun l => l.space != .glob)
    | .atomic | .cas => e.2.lanes.any (fun l => l.space != .glob) || (!e.2.held && o.lanes.any (fun l => !mayPass o l e.2))
    | _ => false)
  || s.heldBack id o || s.coreHeld o || (match o.rel with | some sc => !s.relReady id o.wk o.core sc | none => false)

/-- The scratchpad atomics of one issue, each warp's with its number. -/
def State.bankParts (s : State) (inst : Nat) : List (Nat × MemOp) :=
  s.ops.filter (fun e => e.2.inst == inst && (e.2.kind == .atomic || e.2.kind == .cas) && e.2.lanes.any (fun l => l.space != .glob))

/-- One lane of a scratchpad atomic is applied in its bank (R160). -/
def State.bankLane (s : State) (id : Nat) (o : MemOp) (l : LaneAcc) : State :=
  match l.space with
  | .scr owner =>
    let old := (upFrom l.pa o.width).map (s.scrByte owner)
    let s1 := s.putScr owner l.pa (leBytes o.width (laneNew o l (ofLeBytes old)))
    let s2 := if o.ret then s1.writeBack o l old else s1
    s2.lanesDone id [l.th]
  | .glob => s

/-- A scratchpad atomic is performed in its bank: every lane of its issue in ascending order, whatever its warp, once every part of it may
be (R159, R160, R244). -/
def State.bankAtomic (s : State) (o : MemOp) : State :=
  let ps := s.bankParts o.inst
  if ps.any (fun p => s.bankWaits p.1 p.2) then s
  else
    let s1 := (List.range 32).foldl (fun s n => ps.foldl (fun s p =>
      (p.2.lanes.filter (fun l => laneOfTh l.th == n)).foldl (fun s l => s.bankLane p.1 p.2 l) s) s) s
    ps.foldl (fun s p => s.overtake p.1 p.2.wk false) s1

/-- A .spec ACAS fails early at the core where a cached copy shows another value (R160). -/
def State.specFail (s : State) (id : Nat) (o : MemOp) (mask : W32) : State :=
  (o.lanes.filter (fun l => laneBit mask (laneOfTh l.th) && l.got1.isNone && l.flt == 0 && o.use_ == .spec)).foldl (fun s l =>
    match SMap.look s.l1 (l1Key o.core l.pa) with
    | some c =>
      let bs := (c.bytes.drop (l.pa % 32)).take o.width
      if s.l1Serves { o with byL2 := false } (l.pa, o.width) && decide (ofLeBytes bs ≠ l.data.toNat % 2 ^ (8 * o.width))
          && !s.heldBack id o then
        (s.writeBack o l bs).lanesDone id [l.th]
      else s
    | none => s) s

end Sys2Proof.Machine
end

