-- ==== Sys2Proof/Machine/Records.lean ====
section
/-!
DEFINITION. Event records and the rings they are written to (R325, R326, R385, R415), host memory, and watch hits (R367).
-/
namespace Sys2Proof.Machine

/-! Host memory. -/

/-- Bytes the host put in its memory. -/
def State.hostStore (s : State) : List (Nat × Byte) → State
  | [] => s
  | (a, b) :: bs => ({ s with host := SMap.write 0 s.host a b }).hostStore bs

/-- DMA reads of host memory; none where a page cannot be reached. -/
def State.dmaRead (s : State) (a n : Nat) : Option (List Byte) :=
  if (upFrom (a / 4096) ((a % 4096 + n + 4095) / 4096)).any (fun p => (SMap.look s.hostNo p).isSome) then none
  else some ((upFrom a n).map (fun k => SMap.read 0 s.host k))

/-- Bytes written to host memory by the device. -/
def State.dmaWrite (s : State) (a : Nat) (bs : List Byte) : State := s.hostStore ((upFrom a bs.length).zip bs)

/-! Records (R326). -/

/-- A field of a record: first byte, bytes, value. -/
abbrev RecField := Nat × Nat × Nat

/-- Bytes put into a block. -/
def putAt (bs : List Byte) (at_ : Nat) (xs : List Byte) : List Byte :=
  bs.take at_ ++ xs ++ bs.drop (at_ + xs.length)

/-- A record of 32 bytes: %wall, its fields, its type (R326). -/
def mkRecord (wall ty : Nat) (fs : List RecField) : List Byte :=
  putAt (fs.foldl (fun bs f => putAt bs f.1 (leBytes f.2.1 f.2.2)) (putAt (List.replicate 32 0) 0 (leBytes 8 wall))) 30 (leBytes 2 ty)

/-- The type of a record. -/
def recType (r : List Byte) : Nat := ofLeBytes (r.drop 30)

/-- Class A (R325): never lost. -/
def classA (ty : Nat) : Bool :=
  [0x0001, 0x0002, 0x0003, 0x0004, 0x0010, 0x0012, 0x0020, 0x0031, 0x0033, 0x0040, 0x0070, 0x0075].contains ty

/-- A record that raises the interrupt at once (R325). -/
def urgent (r : List Byte) : Bool :=
  let ty := recType r
  ty == 0x0002 || ty == 0x0040 || ty == 0x0054 || (ty == 0x0001 && decide (ofLeBytes ((r.drop 16).take 4) ≠ 0))

/-- SIZE of RING_CTL (R325). -/
def Ring.size (r : Ring) : Nat := 2 ^ field r.ctl 0 5
/-- CCOUNT of RING_CTL; 0 acts as 1 (R325). -/
def Ring.ccount (r : Ring) : Nat := max (field r.ctl 8 12) 1
/-- CTIME of RING_CTL, µs (R325). -/
def Ring.ctime (r : Ring) : Nat := field r.ctl 20 16
/-- The ring has room for a record (R325). -/
def Ring.room (r : Ring) : Bool := decide ((r.tail - r.head).toNat < r.size)

/-- A ring of the machine. -/
def State.ring (s : State) (k : Nat) : Ring := (SMap.look s.rings k).getD {}
/-- A ring changed. -/
def State.setRing (s : State) (k : Nat) (r : Ring) : State := { s with rings := SMap.ins s.rings k r }

/-- The interrupt is raised where IEN allows it, and the counts begin anew (R325). -/
def Ring.raise (r : Ring) : Ring :=
  { r with irqs := r.irqs + (if r.ctl.getLsbD 36 then 1 else 0), since := 0, firstAt := none }

/-- One record written: first its bytes, then RING_TAIL (R325). -/
def State.writeRecord (s : State) (k : Nat) (rec : List Byte) : State :=
  let r := s.ring k
  let s1 := s.dmaWrite (r.base.toNat + 32 * (r.tail.toNat % r.size)) rec
  let r1 : Ring := { r with tail := r.tail + 1, since := r.since + 1,
                            firstAt := match r.firstAt with | some t => some t | none => some s.now }
  s1.setRing k (if urgent rec || decide (r1.ccount ≤ r1.since) then r1.raise else r1)

/-- Held records written while there is room (R325). -/
def flushHeld : Nat → Nat → State → State
  | 0, _, s => s
  | n + 1, k, s =>
    let r := s.ring k
    match r.held with
    | [] => s
    | x :: xs => if r.room then flushHeld n k ((s.setRing k { r with held := xs }).writeRecord k x) else s

/-- The ring has room again: RECORDS_LOST for each type counted goes ahead of the held records (R325). -/
def State.drainRing (s : State) (k : Nat) : State :=
  let r := s.ring k
  if !r.room then s
  else
    let lost := r.lost.map (fun e => mkRecord s.wall 0x0004 [(8, 2, e.1), (12, 4, e.2)])
    let s1 := s.setRing k { r with held := lost ++ r.held, lost := [] }
    flushHeld (lost.length + r.held.length) k s1

/-- A record posted to a ring: written, held, or counted as lost (R325). -/
def State.postRaw (s : State) (k : Nat) (rec : List Byte) : State :=
  let r := s.ring k
  if r.held.isEmpty && r.room then s.writeRecord k rec
  else if classA (recType rec) || decide (r.held.length < 1024) then s.setRing k { r with held := r.held ++ [rec] }
  else
    let ty := recType rec
    s.setRing k { r with lost := SMap.ins r.lost ty ((SMap.look r.lost ty).getD 0 + 1) }

/-- A record of a type with its fields, posted to a ring. -/
def State.post (s : State) (k ty : Nat) (fs : List RecField) : State := s.postRaw k (mkRecord s.wall ty fs)

/-- A record of R6, R382, R386 or R419: to the PF ring and the record store (R415: the log holds 16 MB of records). -/
def State.postPf (s : State) (ty : Nat) (fs : List RecField) : State :=
  let rec_ := mkRecord s.wall ty fs
  let log := s.elog ++ [rec_]
  ({ s with elog := if 524288 < log.length then log.drop 1 else log }).postRaw 16 rec_

/-- 1,024 class-A records are held: the front end starts nothing (R325). -/
def State.ringBlocked (s : State) (k : Nat) : Bool := decide (1024 ≤ (s.ring k).held.length)

/-! Error reporting (R385, R386). -/

/-- A bit of ERR_STATUS set (R385). -/
def State.errBit (s : State) (b : Nat) : State := s.csrSet 0x3021 (s.csrGet 0x3021 ||| (1#64 <<< b))

/-- A write ignored or with nonzero reserved bits is recorded: CFGW (R11, R385). -/
def State.recordCfg (s : State) : State := s.errBit 12

/-- UECNT or CECNT up by one, saturating (R385). -/
def State.errCount (s : State) (unc : Bool) : State :=
  let x := s.csrGet 0x3021
  let lo := if unc then 48 else 32
  if field x lo 16 = 65535 then s else s.csrSet 0x3021 (x + (1#64 <<< lo))

/-- ERR_STATUS's bit of a hop and outcome (R384, R385). -/
def hopBit (hop : Nat) (unc : Bool) : Nat :=
  match hop with
  | 0 => if unc then 1 else 0
  | 1 => 2
  | 2 => 3
  | 3 => if unc then 5 else 4
  | 8 => 8
  | _ => if unc then 7 else 6

/-- What a check found at a hop (R386). -/
structure ErrInfo where
  hop    : Nat
  kind   : Nat       -- 0 corrected, 1 uncorrectable, 2 found by scrub
  die    : Nat
  sector : Nat
  unit   : Nat
  pa     : Nat
  fe     : Nat
  ctx    : Nat
  deriving DecidableEq, Repr

/-- An error counted and recorded (R385, R386): corrected ones at most once per unit per millisecond. -/
def State.reportError (s : State) (e : ErrInfo) : State :=
  let unc := decide (e.kind ≠ 0)
  let s1 := s.errCount unc
  -- a retry or a recomputation that succeeds sets no sticky bit
  let s2 := if !unc && (e.hop == 1 || e.hop == 2 || e.hop == 8) then s1 else s1.errBit (hopBit e.hop unc)
  let key := e.hop * 2 ^ 40 + e.die * 2 ^ 36 + e.unit
  let recent := match SMap.look s.errAt key with | some t => decide (s.now < t + 84000000) | none => false
  if !unc && recent then s2
  else
    let s3 := if unc then s2 else { s2 with errAt := SMap.ins s2.errAt key s.now }
    s3.postPf 0x0060 [(8, 1, e.hop), (9, 1, e.kind), (10, 1, e.die), (11, 1, e.sector), (12, 4, e.unit), (16, 8, e.pa),
                      (24, 1, e.fe), (25, 1, e.ctx)]

/-! Physical clusters and touchmarks (R3, R401, R408). -/

/-- What a physical cluster of a die does at delivery, where the record names nothing (assumption 8): 0 serves, 1 anneals, 2 is a billet. -/
def usualRole (n : Nat) : Nat :=
  if n = 87 ∨ n = 175 ∨ n = 262 ∨ n = 263 then 1 else if n = 86 ∨ n = 174 ∨ n = 260 ∨ n = 261 then 2 else 0

/-- What a physical cluster does at delivery, by the manufacturing record (R3). -/
def State.roleOf (s : State) (k : Nat) : Nat := (SMap.look s.made k).getD (usualRole (k % 264))

/-- The cluster of a die that serves its n-th index at delivery: the n-th serving one (R3, R391; assumption 8). -/
def State.madeServe (s : State) (d n : Nat) : Nat :=
  if s.made.isEmpty then 264 * d + (if n < 86 then n else if n < 172 then n + 2 else n + 4)
  else (((upFrom (264 * d) 264).filter (fun k => s.roleOf k == 0))[n]?).getD (264 * d + n)

/-- The physical cluster that serves a logical index (R3): the remap table's, which the assay builds from the record. -/
def State.physOf (s : State) (c : Nat) : Nat := (SMap.look s.serve c).getD (s.madeServe (c / 256) (c % 256))

/-- A physical cluster as delivered (R3). -/
def State.delivered (s : State) (k : Nat) : Phys :=
  if s.roleOf k = 0 then {} else { state := s.roleOf k, on := false }

/-- A physical cluster's state. -/
def State.physAt (s : State) (k : Nat) : Phys := (SMap.look s.phys k).getD (s.delivered k)
/-- A physical cluster changed. -/
def State.updPhys (s : State) (k : Nat) (f : Phys → Phys) : State := { s with phys := SMap.ins s.phys k (f (s.physAt k)) }

/-- The unit id of a core of a physical cluster (R401). -/
def coreUnit (k pos : Nat) : Nat := 1056 * (k / 264) + 4 * (k % 264) + pos
/-- The unit id of a physical cluster's matrix engine (R401). -/
def engineUnit (k : Nat) : Nat := 0x2000 + k

/-- A unit's touchmark. -/
def State.mark (s : State) (u : Nat) : Mark := (SMap.look s.marks u).getD {}
/-- Module powered seconds (R415). -/
def State.powSec (s : State) : Nat := s.sec0 + (s.now - s.onAt) / 84000000000

/-- The physical cluster of a core or an engine; none for other units (R401). -/
def unitPhys (u : Nat) : Option Nat :=
  if u < 4224 then some (264 * (u / 1056) + u % 1056 / 4)
  else if 0x2000 ≤ u ∧ u < 0x2000 + 1056 then some (u - 0x2000)
  else none

/-- STATE of a unit (R402): of a slice or a link macro what an assay left of it (R391). -/
def State.unitState (s : State) (u : Nat) : Nat :=
  match unitPhys u with
  | some k => (s.physAt k).state
  | none => if (SMap.look s.retired u).isSome then 3 else 0

/-- A touchmark changed, with the time of its last update; a retired unit's is frozen (R402). -/
def State.updMark (s : State) (u : Nat) (f : Mark → Mark) : State :=
  if s.unitState u = 3 then s else { s with marks := SMap.ins s.marks u { f (s.mark u) with at_ := s.powSec } }

/-- A cause to call a billet for a cluster arises: together with others for it, one call of the lowest number (R408, R409). -/
def State.addCall (s : State) (c cause unit : Nat) : State :=
  if s.calls.any (fun k => k.clus == c) then
    { s with calls := s.calls.map (fun k =>
        if k.clus = c ∧ !k.begun ∧ cause < k.cause then { k with cause := cause, unit := unit, base := cause } else k) }
  else { s with calls := s.calls ++ [{ clus := c, cause := cause, unit := unit, base := cause, phys := none, begun := false }] }

/-- Suspect results charged to the engine's touchmark; reaching SUSPLIM calls a billet (R181, R384, R408, R413). -/
def State.chargeSuspect (s : State) (c n : Nat) : State :=
  let u := engineUnit (s.physOf c)
  let s1 := s.updMark u (fun m => { m with suspects := m.suspects + n })
  if max (field (s.csrGet 0x3030) 32 8) 1 ≤ (s1.mark u).suspects then s1.addCall c 3 u else s1

/-- PHYS with DIE in bits [10:9] (R382). -/
def physField (k : Nat) : Nat := k % 264 + 512 * (k / 264)

/-- SUSPECT_EVENT, at most once per engine per millisecond (R386). -/
def State.suspectEvent (s : State) (c : Nat) : State :=
  let k := s.physOf c
  let key := 2 ^ 50 + k
  let recent := match SMap.look s.errAt key with | some t => decide (s.now < t + 84000000) | none => false
  if recent then s
  else ({ s with errAt := SMap.ins s.errAt key s.now }).postPf 0x0061
    [(8, 2, c), (10, 2, physField k), (12, 4, (s.mark (engineUnit k)).suspects)]

/-! Watch hits that are no trap (R367). -/

/-- A match of a copy's hull, a peer's or a RoCEv2 write: HITS, and at most one record per watchpoint per 1,024 fabric cycles. -/
def State.watchRecord (s : State) (ck n src kind team lo : Nat) : State :=
  let s1 := s.updCtx ck (fun c => c.countHit n)
  let key := 4 * ck + n
  let recent := match SMap.look s.watchAt key with | some t => decide (s.now < t + 1024 * 40) | none => false
  if recent then s1
  else ({ s1 with watchAt := SMap.ins s1.watchAt key s.now }).post (ck / 8) 0x0032
    [(8, 1, ck % 8), (9, 1, n), (10, 1, src), (11, 1, kind), (12, 4, team), (16, 8, lo)]

/-- The range of an enabled watchpoint. -/
def Ctx.watchRange (c : Ctx) (k : Nat) : Nat × Nat :=
  let ctl := ((c.watchC[k]?).getD 0).toNat
  let size := min (ctl / 2 ^ 8 % 64) 40
  (((c.watchA[k]?).getD 0).toNat % 2 ^ 48 / 2 ^ size * 2 ^ size, 2 ^ size)

/-- Watchpoints that a byte range matches with a control bit set: 1 R, 2 W, 3 EXT. -/
def Ctx.watchMatches (c : Ctx) (lo hi bit : Nat) : List Nat :=
  (List.range 4).filter (fun k =>
    let ctl := ((c.watchC[k]?).getD 0).toNat
    let r := c.watchRange k
    decide (ctl % 2 = 1) && decide (ctl / 2 ^ bit % 2 = 1) && decide (lo < r.1 + r.2 ∧ r.1 < hi))

/-- A range of virtual addresses reported to the watchpoints of a context (R367). -/
def State.watchRange (s : State) (ck lo hi bit src kind team : Nat) : State :=
  let c := (SMap.look s.ctxs ck).getD {}
  (c.watchMatches lo hi bit).foldl (fun s k => s.watchRecord ck k src kind team (max lo (c.watchRange k).1)) s

end Sys2Proof.Machine
end

