-- ==== Sys2Proof/Machine/L2.lean ====
section
/-!
DEFINITION. The L2 as a directory: which lines it holds, in which home slice and under which partition's number, with their sharer vectors
(R149, R155, R337, R339, R341, R345, R351, R398; assumption 136). A line's bytes are those of memory.
-/
namespace Sys2Proof.Machine

/-- The die of a colour or group, and the sectors that a colour's slices lie in (R337). -/
def colourSectors (c : Nat) : List Nat := (List.range 6).map (fun k => 3 * (c / 16) + (6 * (c % 16) + k) / 32)

/-- The sector of a slice, counted over the module (R337). -/
def sliceSector (sl : Nat) : Nat := 3 * (sl / 96) + sl % 96 / 32

/-- The sector of the physical cluster that serves a logical one, counted over the module (R2, R343). -/
def State.clusSector (s : State) (c : Nat) : Nat := let k := s.physOf c; 3 * (k / 264) + k % 264 / 88

/-- The ways of a slice's colour that a partition has (R345). -/
def State.waysOf (s : State) (p slice : Nat) : Nat := (SMap.look s.quota (16 * (slice / 6) + p)).getD 16

/-- The other lines of a partition in a line's set of a slice. -/
def State.l2Mates (s : State) (p home line : Nat) : SMap L2Line :=
  s.l2.filter (fun e => e.1 != line && e.2.part == p && e.2.home == home && Config.l2Set e.1 % 1024 == Config.l2Set line % 1024)

/-- A fill by a partition at its quota evicts a line of that partition from the same set (R345): the one predicted to be used last, the
others moved on as far (R149). -/
def State.l2Evict (s : State) (p home line : Nat) : State :=
  let mine := s.l2Mates p home line
  let top := (mine.map (fun e => e.2.rrpv)).foldl max 0
  let out := (mine.find? (fun e => e.2.rrpv == top)).map Prod.fst
  { s with l2 := mine.foldl (fun m e =>
      if out == some e.1 then SMap.del m e.1 else SMap.ins m e.1 { e.2 with rrpv := e.2.rrpv + (3 - top) }) s.l2 }

/-- The ways that lines take, with their sector-local copies (R345). -/
def l2Ways (m : SMap L2Line) : Nat := (m.map (fun e => 1 + e.2.copies.length)).sum

/-- Lines of a partition leave a set until `n` more ways are within its quota (R2, R345). -/
def State.l2Room : Nat → Nat → Nat → Nat → Nat → State → State
  | 0, _, _, _, _, s => s
  | k + 1, p, home, line, n, s =>
    if l2Ways (s.l2Mates p home line) + n ≤ s.waysOf p home ∨ (s.l2Mates p home line).isEmpty then s
    else (s.l2Evict p home line).l2Room k p home line n

/-- Sector-local copies take at most 2 ways of a set (R345): the copies of a line's mates that `n` of its own leave no room for are gone. -/
def State.l2Copies (s : State) (p home line n : Nat) : State :=
  { s with l2 := ((s.l2Mates p home line).foldl (fun (x : SMap L2Line × Nat) e =>
      (SMap.ins x.1 e.1 { e.2 with copies := e.2.copies.take x.2 }, x.2 - e.2.copies.length)) (s.l2, 2 - n)).1 }

/-- A line stands in the L2 at its home: its copies and its set stay within the partition's ways (R2, R345). -/
def State.l2Put (s : State) (line : Nat) (l : L2Line) : State :=
  let k := min 2 (s.waysOf l.part l.home - 1)
  let l1 := { l with copies := l.copies.drop (l.copies.length - k) }
  let s1 := (s.l2Copies l.part l.home line l1.copies.length).l2Room 32 l.part l.home line (1 + l1.copies.length)
  { s1 with l2 := SMap.ins s1.l2 line l1 }

/-- An access to a line through the L2 (R339, R345, R351). A hit at an old home moves the line to its new one, with its dirty state and its
sharer vector; a write invalidates every sector-local copy first; a line of another partition's number is written back and filled anew. -/
def State.l2Touch (s : State) (p core pa : Nat) (write : Bool) (r : Rdist) : State :=
  let line := pa / 128
  let home := s.homeSlice p pa
  let sec := s.clusSector (core / 4)
  let more := fun (cs : List Nat) => if write then [] else if sec = sliceSector home || cs.contains sec then cs else cs ++ [sec]
  match SMap.look s.l2 line with
  | some l =>
    if l.part = p then s.l2Put line { l with home := home, dirty := l.dirty || write, rrpv := 0, copies := more l.copies }
    else ({ s with l2 := SMap.del s.l2 line }).l2Put line { part := p, home := home, dirty := write, rrpv := rrpvOf r, copies := more [] }
  | none => s.l2Put line { part := p, home := home, dirty := write, rrpv := rrpvOf r, copies := more [] }

/-- An access that allocates nothing, of the device or from outside the module: a line at an old home moves to its new one, and a write
invalidates its sector-local copies first (R351; assumption 136). -/
def State.l2Pass (s : State) (pa : Nat) (write : Bool) : State :=
  match SMap.look s.l2 (pa / 128) with
  | some l =>
    let home := s.homeSlice l.part pa
    if home = l.home && !write then s
    else s.l2Put (pa / 128) { l with home := home, dirty := l.dirty || write, copies := if write then [] else l.copies }
  | none => s

/-- The declared range of a grid that an address lies in (R361). -/
def Grid.rangeAt (g : Grid) (va : Nat) : Option Nat :=
  (List.range g.ranges.length).find? (fun i => (g.ranges[i]?).any (fun r => decide (r.acc ≠ 0 ∧ r.va ≤ va ∧ va < r.va + r.len)))

/-- The lookups of a range. -/
def HintCnt.lookups (c : HintCnt) : Nat := c.dies.sum

/-- A lookup counted for the declared range that it falls in (R361): whether it misses, and the die it comes from. -/
def State.countHint (s : State) (th core va pa : Nat) : State :=
  match SMap.look s.teams (teamOfTh th), s.gridOfTeam (teamOfTh th) with
  | some t, some g =>
    (match g.rangeAt va with
     | some i =>
       let key := 16 * t.grid + i
       let c := (SMap.look s.hintCnt key).getD {}
       let hit := (SMap.look s.l2 (pa / 128)).any (fun l => l.part == g.ctx / 8)
       { s with hintCnt := SMap.ins s.hintCnt key { misses := c.misses + (!hit).toNat, dies := c.dies.modify (core / 1024) (· + 1) } }
     | none => s)
  | _, _ => s

/-- A thread's access looks its line up in the L2 (R339, R351, R361). -/
def State.l2Look (s : State) (th core va pa : Nat) (write : Bool) (r : Rdist) : State :=
  (s.countHint th core va pa).l2Touch (s.partOfTeam (teamOfTh th)) core pa write r

/-- Accesses with one lookup for each line: the first of each (R361; assumption 136). -/
def firstOfLine (xs : List (Nat × Nat × Nat)) : List (Nat × Nat × Nat) :=
  xs.foldl (fun l x => if l.any (fun y => y.2.2 / 128 == x.2.2 / 128) then l else l ++ [x]) []

/-- The lines that the lanes of an operation access, each with its first thread and that one's address. -/
def MemOp.lines (o : MemOp) (lanes : W32) : List (Nat × Nat × Nat) :=
  firstOfLine ((o.lanes.filter (fun l => l.space == .glob && laneBit lanes (laneOfTh l.th))).flatMap (fun l =>
    (l.th, l.addr.toNat, l.pa) :: (if l.pa % 32 + o.width ≤ 32 then [] else [(l.th, l.addr.toNat + (32 - l.pa % 32), l.pa2)])))

/-- The lanes of an operation access their lines (R149, R155, R160), at a re-reference prediction. -/
def State.l2Lanes (s : State) (o : MemOp) (lanes : W32) (write : Bool) (r : Rdist) : State :=
  (o.lines lanes).foldl (fun (s : State) x => s.l2Look x.1 o.core x.2.1 x.2.2 write r) s

/-- Lines written back and invalidated, with every local copy (R341, R351, R398). -/
def State.l2Drop (s : State) (hit : Nat → L2Line → Bool) : State := { s with l2 := SMap.keep (fun k l => !hit k l) s.l2 }

/-- The rehash walk (R351, R398): a line of a dissolved partition, or of a colour that leaves every involved partition, is written back and
invalidated; another line of an involved partition moves to its new home. Lines of other partitions are not touched. -/
def State.l2Walk (s : State) (ents : List REnt) : State :=
  let keeps := ents.foldl (fun x e => if e.diss then x else x ||| e.colour) (0 : W64)
  let s1 := s.l2Drop (fun _ l => ents.any (fun e => e.part == l.part && (e.diss || !keeps.getLsbD (l.home / 6))))
  (s1.l2.filter (fun e => ents.any (fun x => x.part == e.2.part && !x.diss) && e.2.home != s.homeSlice e.2.part (128 * e.1))).foldl
    (fun (t : State) e => match SMap.look t.l2 e.1 with
      | some l => t.l2Put e.1 { l with home := s.homeSlice l.part (128 * e.1) }
      | none => t) s1

/-- The sets of a colour's slices within quotas that have changed (R2, R345). -/
def State.l2Trim (s : State) (c : Nat) : State :=
  (s.l2.filter (fun e => e.2.home / 6 == c)).foldl (fun (t : State) e => match SMap.look t.l2 e.1 with
    | some l => t.l2Put e.1 l
    | none => t) s

/-- A direct write that takes colours from a partition completes once its lines in them are written back and invalidated (R341). -/
def State.l2LeaveColours (s : State) (p : Nat) : State := s.l2Drop (fun _ l => l.part == p && !(s.partColour p).getLsbD (l.home / 6))

end Sys2Proof.Machine
end

