-- ==== Sys2Proof/Machine/Engine.lean ====
section
/-!
DEFINITION. Fragments, matrix operations and their passes, opcodes 0xD0 to 0xD3, and the bound and token forms 0xD9 to 0xDD
(R66 to R71, R165 to R183, R191, R192).
-/
namespace Sys2Proof.Machine

/-! Fragments (R168 to R170). -/

/-- The key of a lane's thread in an ordinary warp. -/
def warpTh (wk lane : Nat) : Nat := thKey (wk / 2 / 64) (32 * (wk / 2 % 64) + lane)

/-- The 32 threads of an ordinary warp. -/
def warpThs (wk : Nat) : List Nat := (List.range 32).map (warpTh wk)

/-- ROLE of a fragment form (R169). -/
def fragRole (e : W16) : Nat := bitsOf e 5 2
/-- SC of a fragment form (R169). -/
def fragSc (e : W16) : Bool := e.getLsbD 3
/-- The registers a lane moves, without its scale register (R169). -/
def fragMain (e : W16) : Nat := if fragRole e = 2 then 16 else 8
/-- W of a fragment form (R165). -/
def fragW (e : W16) : Nat := bitsOf e 0 3
/-- The bytes a fragment form moves over (R170). -/
def fragBytes (e : W16) : Nat := if fragRole e = 2 then 2080 else if fragSc e then 1056 else 1024

/-- The panel offset of register k of a lane (R168, R169). -/
def fragWord (role lane k : Nat) : Nat :=
  let r := lane % 16
  let h := lane / 16
  if role = 2 then 1056 * h + 64 * r + 4 * (k ^^^ r) else 64 * r + 4 * ((8 * h + k) ^^^ r)

/-- The panel offset of the strip word that holds a lane's row (R168). -/
def stripWord (lane : Nat) : Nat := 1024 + 4 * (lane % 16 / 2)

/-- One 4-byte access of a fragment. -/
def fragAcc (a : LaneAcc) (th off : Nat) (data : W32) : LaneAcc :=
  { a with th := th, addr := BitVec.ofNat 64 (a.pa + off), pa := a.pa + off, pa2 := a.pa + off + 4, data := data.setWidth 128 }

/-- The accesses of FLD: every register of every lane in order, then the scale registers. -/
def fragReads (e : W16) (wk : Nat) (a : LaneAcc) : List LaneAcc :=
  (List.range 32).flatMap (fun l => (List.range (fragMain e)).map (fun k => fragAcc a (warpTh wk l) (fragWord (fragRole e) l k) 0))
    ++ (if fragSc e then (List.range 32).map (fun l => fragAcc a (warpTh wk l) (stripWord l) 0) else [])

/-- The words FST stores from each lane, in register order. -/
def State.fragData (s : State) (e : W16) (wk base : Nat) : List (List Nat) :=
  (List.range 32).map (fun l => (List.range (fragMain e)).map (fun k => (s.vget (warpTh wk l) (base + k)).toNat))

/-- The elements of a lane's words for the bound check of FST (R170). -/
def fragElems (role : Nat) (ws : List Nat) : List Nat :=
  if role = 2 then (List.range 8).map (fun i => (ws[2 * i]?).getD 0 + 2 ^ 32 * (ws[2 * i + 1]?).getD 0) else ws

/-- Elements back to words. -/
def fragWords (role : Nat) (es : List Nat) : List Nat :=
  if role = 2 then es.flatMap (fun x => [x % 2 ^ 32, x / 2 ^ 32 % 2 ^ 32]) else es

/-- The accesses of FST (R169): every word of every lane; with SC the strip, rows from the higher of the lanes that hold them. -/
def State.fragWrites (s : State) (e : W16) (wk base : Nat) (a : LaneAcc) (ws : List (List Nat)) : List LaneAcc :=
  (List.range 32).flatMap (fun l => (List.range (fragMain e)).map (fun k =>
      fragAcc a (warpTh wk l) (fragWord (fragRole e) l k) (BitVec.ofNat 32 ((((ws[l]?).getD [])[k]?).getD 0))))
    ++ (if fragSc e then (List.range 8).map (fun k =>
      let sc := fun r => (s.vget (warpTh wk (16 + r)) (base + 8)).toNat % 2 ^ 16
      fragAcc a (warpTh wk (16 + 2 * k + 1)) (1024 + 4 * k) (BitVec.ofNat 32 (sc (2 * k) + 2 ^ 16 * sc (2 * k + 1)))) else [])

/-- The trap of a rendezvous form in every member, with no entry: each resumes at the form's word (R170, R225). -/
def memberTraps (r : Rdv) (code : Nat) : List TrapReq :=
  r.members.map (fun m => { th := m.th, code := code, info := r.pc, rpc := r.pc, entry := none })

/-- The counter entry of an instance is moved to the operation that follows it (R96 rule 7, R170). -/
def State.moveEntry (s : State) (wk from_ to_ : Nat) (left : W32) : State :=
  s.updWarp wk (fun w => { w with entries := releaseAll (w.entries.map (fun e =>
    if e.op = from_ then { e with op := to_, left := left } else e)) })

/-- The operation of an FLD of a warp over the panel an access names (R170). -/
def State.fldOp (s : State) (f : En) (wk core : Nat) (pc : W64) (a : LaneAcc) : State × Nat :=
  let n := s.newId
  let o : MemOp := { baseOp .load with
    wk := wk, core := core, pc := pc, width := 4, lanes := fragReads f.emod wk a, dst := some f.d, regs := fragRegs f.emod
    w := fragW f.emod, frag := some f.emod, gen := s.genOf wk, issued := s.now, inst := n.1 }
  ((warpThs wk).foldl (fun s th => s.busyLane th (some f.d) (fragRegs f.emod) n.1) { n.2 with ops := SMap.ins n.2.ops n.1 o }, n.1)

/-- FLD at completion (R38, R170): no effect where no member's guard is true. -/
def doneFld (f : En) (s : State) (op : Nat) (r : Rdv) : State × List TrapReq :=
  match (if r.actors.isEmpty then none else r.lowest) with
  | none => (s.moveEntry r.wk op op 0, [])
  | some low =>
    let q : Ask := { wh := .local_, addr := low.sa, width := fragBytes f.emod, align := 32, isRead := true, isWrite := false }
    match s.check low.th q with
    | .ok a =>
      let x := s.fldOp f r.wk (s.coreOfTh low.th) r.pc a
      (x.1.moveEntry r.wk op x.2 0xFFFFFFFF, [])
    | .trap c => (s.moveEntry r.wk op op 0, memberTraps r c)
    | .park _ => (s, [])

/-- A fragment register of some lane of a warp holds an uncorrectable error (R368). -/
def State.fragBad (s : State) (f : En) (wk : Nat) : Bool := anyLane s.vbad (warpThs wk) (upFrom f.x.toNat (fragRegs f.emod))

/-- FST at completion (R38, R152, R170): no effect where no member's guard is true; a fragment register in error stops every member. -/
def doneFst (f : En) (s : State) (op : Nat) (r : Rdv) : State × List TrapReq :=
  match (if r.actors.isEmpty then none else r.lowest), SMap.look s.warps r.wk with
  | some low, some w =>
    if s.fragBad f r.wk then (s.moveEntry r.wk op op 0, memberTraps r 0x10)
    else
    let q : Ask := { wh := .local_, addr := low.sa, width := fragBytes f.emod, align := 32, isRead := false, isWrite := true }
    match s.check low.th q with
    | .ok a =>
      let role := fragRole f.emod
      let raw := s.fragData f.emod r.wk f.x.toNat
      let ck := ((s.gridOfTeam w.team).map Grid.ctx).getD 0
      let b := ((SMap.look s.ctxs ck).getD {}).bound w.bsel
      let chk := f.emod.getLsbD 4
      let res := raw.map (fun ws => boundList b (if role = 2 then .f64 else .f32) (fragElems role ws))
      let n := if chk then (res.map Prod.fst).foldl (· + ·) 0 else 0
      let s1 := if n = 0 then s else s.chargeBound ck w.bsel n
      if chk ∧ b.act = 2 ∧ n ≠ 0 then (s1.moveEntry r.wk op op 0, memberTraps r 0x0B)
      else
        let ws := if chk then res.map (fun p => fragWords role p.2) else raw
        let k := s1.newId
        let o : MemOp := { baseOp .store with
          wk := r.wk, core := s.coreOfTh low.th, pc := r.pc, width := 4, lanes := s.fragWrites f.emod r.wk f.x.toNat a ws,
          byL2 := true, frag := some f.emod, gen := s.genOf r.wk, issued := s.now, inst := k.1 }
        (({ k.2 with ops := SMap.ins k.2.ops k.1 o }).moveEntry r.wk op k.1 0xFFFFFFFF, [])
    | .trap c => (s.moveEntry r.wk op op 0, memberTraps r c)
    | .park _ => (s, [])
  | _, _ => (s.moveEntry r.wk op op 0, [])

/-- The shape of FLD and FST: rendezvous of the whole warp (R170). -/
def fragForm (i : Instr) (f : En) (s : State) (done : State → Nat → Rdv → State × List TrapReq) :
    Host.Outcome State Fault Refusal :=
  rendezvous i f.g s
    { w := fragW f.emod
      mask := fun _ _ => 0xFFFFFFFF
      contrib := fun _ _ _ => {}
      scalars := fun s wk => (s.sget wk f.p.toNat, 0)
      opened := fun s wk id => s.rdvEntry (fragW f.emod) wk id
      complete := done }

/-- FLD (R170). -/
def execFld (f : En) (s : State) : Host.Outcome State Fault Refusal := fragForm (.fld f) f s (doneFld f)
/-- FST (R170). -/
def execFst (f : En) (s : State) : Host.Outcome State Fault Refusal := fragForm (.fst f) f s (doneFst f)

/-- The bytes of a fragment arrive (R77, R170): all registers of all 32 lanes are written at once. -/
def State.fragReturn (s : State) (id : Nat) (o : MemOp) (e : W16) : State :=
  if s.heldBack id o || s.coreHeld o || s.storesFirst id o || o.lanes.any (fun l => s.sameBytesFirst id o l) then s
  else
    let s := s.overtake id o.wk true
    let word := fun (l : LaneAcc) => ofLeBytes ((upFrom l.pa 4).map (s.readByte id o.wk o.core false l.space))
    let n := fragMain e
    let d := (o.dst.getD 0).toNat
    let put := fun (s1 : State) (p : LaneAcc × Nat) =>
      if p.2 < 32 * n then s1.vset p.1.th (d + p.2 % n) (BitVec.ofNat 32 (word p.1))
      else s1.vset p.1.th (d + n) (BitVec.ofNat 32 (word p.1 / 2 ^ (16 * (laneOfTh p.1.th % 2)) % 2 ^ 16))
    let s1 := (o.lanes.zip (List.range o.lanes.length)).foldl put s
    let ths := warpThs o.wk
    let o1 := { o with regs := fragRegs e }
    (s1.unbusy o1 ths).lanesDone id ths

/-! Element formats (R167). -/

/-- An element format of a parameter block or descriptor. -/
inductive ElFmt where
  | int8
  | flt (m : Fmt)
  | raw (n : Nat)
  deriving DecidableEq, Repr

/-- A format code (R167); none where it is reserved. -/
def elFmt (c : Nat) : Option ElFmt :=
  match c with
  | 0x00 => some .int8
  | 0x01 => some (.flt .f16)
  | 0x02 => some (.flt .bf16)
  | 0x03 => some (.flt .f32)
  | 0x04 => some (.flt .f64)
  | 0x10 => some (.raw 1)
  | 0x11 => some (.raw 2)
  | 0x12 => some (.raw 4)
  | 0x13 => some (.raw 8)
  | _ => if 0x80 ≤ c ∧ c < 0xA0 ∧ c % 8 ≠ 0 then some (.flt (.f8 (c % 8) (decide (c / 8 % 2 = 1)) (decide (c / 16 % 2 = 1)))) else none

/-- The bytes of an element. -/
def ElFmt.size : ElFmt → Nat
  | .int8 => 1
  | .flt .f64 => 8
  | .flt .f32 => 4
  | .flt .f16 | .flt .bf16 => 2
  | .flt (.f8 _ _ _) => 1
  | .raw n => n

/-- A format MMA takes (R167). -/
def ElFmt.forMma : ElFmt → Bool
  | .int8 => true
  | .flt .f64 => false
  | .flt _ => true
  | .raw _ => false

/-- A byte of a block. -/
def blkByte (b : List Byte) (k : Nat) : Nat := ((b[k]?).getD 0).toNat
/-- A little-endian field of a block. -/
def blkField (b : List Byte) (k n : Nat) : Nat := ofLeBytes ((b.drop k).take n)

/-! The parameter block (R175 to R177). -/

/-- A valid parameter block, read. -/
structure MmaPar where
  a    : ElFmt
  b    : ElFmt
  c    : Nat
  mt   : Nat
  nt   : Nat
  kn   : Nat
  kp   : Nat       -- elements of a panel row along K
  bl   : Nat       -- elements of a K-block (R66)
  ab   : Nat
  bb   : Nat
  cb   : Nat
  db   : Nat
  sab  : Nat
  sbb  : Nat
  ovw  : Bool
  strap : Bool
  be   : Bool
  bidx : Nat
  tri  : Bool
  tfill : Bool
  dofs : Int
  tconst : Nat
  deriving DecidableEq, Repr

/-- Registers of a C or D tile (R177). -/
def MmaPar.q (p : MmaPar) : Nat := if p.c = 1 then 16 else 8

/-- Register ranges: first and count. -/
def MmaPar.aRange (p : MmaPar) : Nat × Nat := (p.ab, 8 * p.mt * p.kn)
/-- B's registers. -/
def MmaPar.bRange (p : MmaPar) : Nat × Nat := (p.bb, 8 * p.nt * p.kn)
/-- A's scale registers; none with 255. -/
def MmaPar.saRange (p : MmaPar) : Nat × Nat := (p.sab, if p.sab = 255 then 0 else p.mt * p.kn)
/-- B's scale registers. -/
def MmaPar.sbRange (p : MmaPar) : Nat × Nat := (p.sbb, if p.sbb = 255 then 0 else p.nt * p.kn)
/-- C's registers; none with OVW. -/
def MmaPar.cRange (p : MmaPar) : Nat × Nat := if p.ovw then (0, 0) else (p.cb, p.mt * p.nt * p.q)
/-- D's registers. -/
def MmaPar.dRange (p : MmaPar) : Nat × Nat := (p.db, p.mt * p.nt * p.q)

/-- Two register ranges meet: neither is empty. -/
def rangesMeet (x y : Nat × Nat) : Bool := decide (x.2 ≠ 0 ∧ y.2 ≠ 0 ∧ x.1 < y.1 + y.2 ∧ y.1 < x.1 + x.2)

/-- A range within v254 and the launch's lane registers (R176). -/
def rangeFits (nv : Nat) (x : Nat × Nat) : Bool := x.2 == 0 || decide (x.1 + x.2 ≤ 255 ∧ x.1 + x.2 ≤ nv)

/-- The parameter block, read; none where R176 calls it invalid. -/
def mmaPar (nv : Nat) (b : List Byte) : Option MmaPar :=
  match elFmt (blkByte b 0), elFmt (blkByte b 1) with
  | some fa, some fb =>
    let fl := blkField b 12 2
    let shape := blkByte b 3
    let k := blkField b 4 2
    let kp := 64 / fa.size
    let lim := match fa.size with | 1 => 256 | 2 => 128 | _ => 32
    let p : MmaPar :=
      { a := fa, b := fb, c := blkByte b 2, mt := 1 + shape % 2, nt := 1 + shape / 2 % 2, kn := k / kp, kp := kp,
        bl := match fa.size with | 1 => 64 | 2 => 32 | _ => 8
        ab := blkByte b 6, bb := blkByte b 7, cb := blkByte b 8, db := blkByte b 9, sab := blkByte b 10, sbb := blkByte b 11,
        ovw := decide (fl % 2 = 1), strap := decide (fl / 2 % 2 = 1), be := decide (fl / 4 % 2 = 1), bidx := fl / 8 % 16,
        tri := decide (fl / 128 % 2 = 1), tfill := decide (fl / 256 % 2 = 1),
        dofs := intOf true 16 (blkField b 14 2), tconst := blkField b 16 4 }
    let ok := fa.forMma && fb.forMma && decide (p.c ≤ 2) && decide (shape < 4) && decide (fl < 512)
      && (b.drop 20).all (· == 0) && fa.size == fb.size
      && ((fa == .int8) == (fb == .int8)) && ((fa == .int8) == (p.c == 2))
      && decide (k ≠ 0 ∧ k % kp = 0 ∧ k ≤ lim) && !(p.be && p.c == 2)
      && [p.aRange, p.bRange, p.saRange, p.sbRange, p.cRange, p.dRange].all (rangeFits nv)
      && !(p.c == 1 && ((decide (p.cb % 2 = 1) && !p.ovw) || decide (p.db % 2 = 1)))
      && !([p.aRange, p.bRange, p.saRange, p.sbRange].any (rangesMeet p.dRange))
      && !(rangesMeet p.cRange p.dRange && p.cb != p.db)
    if ok then some p else none
  | _, _ => none

/-! One pass (R66 to R71, R178, R180, R181). -/

/-- The accumulator format; none for int32. -/
def MmaPar.acc (p : MmaPar) : Option Fmt := match p.c with | 0 => some .f32 | 1 => some .f64 | _ => none

/-- The code of operand element (row, k) of a warp (R177). -/
def State.mmaElem (s : State) (wk base t size kp row k : Nat) : Nat :=
  let byteOff := k % kp * size
  let r := base + 8 * (k / kp * t + row / 16) + byteOff % 32 / 4
  let w := (s.vget (warpTh wk (row % 16 + 16 * (byteOff / 32))) r).toNat
  w / 2 ^ (8 * (byteOff % 4)) % 2 ^ (8 * size)

/-- The scale code of a row for K position k (R66, R168, R177). -/
def State.mmaScale (s : State) (wk base t size kp row k : Nat) : Nat :=
  if base = 255 then 0x7F
  else
    let w := (s.vget (warpTh wk (row % 16)) (base + k / kp * t + row / 16)).toNat
    if size = 1 then w / 2 ^ (8 * (k % kp / 32)) % 256 else w % 256

/-- What a K-block yields: a special value, or an exact sum with its sticky term and the largest exponent (R67, R69). -/
inductive BlockSum where
  | nan
  | inf (neg : Bool)
  | fin (x : XR)
  deriving DecidableEq, Repr

/-- Truncation of a dyadic number to a multiple of 2^q toward zero. -/
def Dy.truncTo (x : Dy) (q : Int) : Int :=
  if q ≤ x.e then x.m * pow2 (x.e - q)
  else
    let n : Nat := x.m.natAbs / 2 ^ (q - x.e).toNat
    if x.m < 0 then -(n : Int) else n

/-- The largest floor(log2) of nonzero finite products. -/
def prodLog (ps : List XR) : Option Int := maxLog (ps.map some)

/-- block_sum with its sticky term (R67, R68). -/
def finiteSum (ps : List XR) : XR :=
  match prodLog ps with
  | none => .fin (ps.all XR.isNeg && !ps.isEmpty) 0 0
  | some E =>
    let q := E - 167
    let r := ps.foldl (fun (acc : Int × Bool) p =>
      match p with
      | .fin n m e =>
        let x := dyOf n m e
        let t := x.truncTo q
        (acc.1 + t, acc.2 || !(Dy.add x { m := -t, e := q }).m == 0)
      | _ => acc) (0, false)
    let S : Dy := { m := r.1, e := q }
    let sig : Dy := { m := if r.1 < 0 then -1 else 1, e := E - 169 }
    (if r.2 && r.1 ≠ 0 then S.add sig else S).toXR false

/-- A K-block of products, special values first (R69). -/
def blockSum (bad : Bool) (ps : List XR) : BlockSum :=
  if bad || ps.any XR.isNan then .nan
  else
    let pos := ps.contains (.inf false)
    let neg := ps.contains (.inf true)
    if pos && neg then .nan
    else if pos then .inf false
    else if neg then .inf true
    else .fin (finiteSum ps)

/-- The exact pre-rounding value of one element after a block (R68, R69). -/
def accPlus (acc : XR) : BlockSum → XR
  | .nan => .nan
  | .inf n => XR.add .rne acc (.inf n)
  | .fin x => XR.add .rne acc x

/-- floor(log2 |x|) of a finite nonzero value. -/
def XR.logf : XR → Option Int
  | .fin _ m e => if m = 0 then none else some ((Nat.log2 m : Int) + e)
  | _ => none

/-- R181's bound exponent for one element of a block. -/
def boundExp (p : MmaPar) (fa fb : Fmt) (scales : List (Nat × Nat)) (acc : XR) : Int :=
  let pb := scales.foldl (fun (m : Option Int) c =>
    let x := ((c.1 : Int) - 127) + ((c.2 : Int) - 127) + fa.emax + fb.emax + 1
    match m with | none => some x | some y => some (max x y)) none
  let lg : Int := match p.bl with | 64 => 6 | 32 => 5 | _ => 3
  let e := pb.getD 0 + lg
  (match acc.logf with | some a => max e a | none => e) + 1

/-- One element's new accumulator code and whether it is suspect: row m, column n, K from k0 (R66 to R71, R181). A faulty engine may
give another code in its place. -/
def State.mmaStep (s : State) (wk : Nat) (p : MmaPar) (m n k0 acc : Nat) (faulty : Option Nat) : Nat × Bool :=
  let ks := upFrom k0 p.bl
  let av := fun k => s.mmaElem wk p.ab p.mt p.a.size p.kp m k
  let bv := fun k => s.mmaElem wk p.bb p.nt p.b.size p.kp n k
  match p.a, p.b, p.acc with
  | .flt fa, .flt fb, some fc =>
    let sc := fun k => (s.mmaScale wk p.sab p.mt p.a.size p.kp m k, s.mmaScale wk p.sbb p.nt p.b.size p.kp n k)
    let prods := ks.map (fun k => ((fa.value (av k)).mul (fb.value (bv k))).scale (((sc k).1 : Int) - 127 + (((sc k).2 : Int) - 127)))
    let bad := ks.any (fun k => (sc k).1 == 255 || (sc k).2 == 255 || (fa.value (av k)).isNan || (fb.value (bv k)).isNan)
    let r := blockSum bad prods
    let x := accPlus (fc.value acc) r
    let y := match faulty with | some c => fc.value c | none => x
    let G := boundExp p fa fb (ks.map sc) (fc.value acc)
    let sus := match r, y.logf with
      | .fin _, some e => decide (G < e)
      | _, _ => false
    ((match faulty with | some c => c % 2 ^ (fc.magBits + 1) | none => fc.round .rne false x), sus)
  | _, _, _ =>
    let sum := ks.foldl (fun (t : Int) k => t + intOf true 8 (av k) * intOf true 8 (bv k)) (intOf true 32 acc)
    ((match faulty with | some c => c % 2 ^ 32 | none => wrapTo 32 sum), false)

/-- Element (m, n) of the whole output is masked (R180). -/
def MmaPar.masked (p : MmaPar) (m n : Nat) : Bool := p.tri && decide (p.dofs < (n : Int) - (m : Int))

/-- Tiles of an output. -/
def MmaPar.tiles (p : MmaPar) : Nat := p.mt * p.nt
/-- K-blocks of an operation. -/
def MmaPar.blocks (p : MmaPar) : Nat := p.kn * p.kp / p.bl

/-- Row 0 and column 0 of a tile. -/
def MmaPar.origin (p : MmaPar) (t : Nat) : Nat × Nat := (16 * (t % p.mt), 16 * (t / p.mt))

/-- Every element of a tile is masked (R180): its bottom left corner is. -/
def MmaPar.allMasked (p : MmaPar) (t : Nat) : Bool := p.masked ((p.origin t).1 + 15) (p.origin t).2

/-- The register and, for binary64, the second one that hold element (r, c) of a tile, and its lane (R169, R177). -/
def tileReg (p : MmaPar) (base t r c : Nat) : Nat × Nat :=
  (r + 16 * (c / 8), base + p.q * t + (if p.c = 1 then 2 * (c % 8) else c % 8))

/-- An element of a C tile. -/
def State.tileGet (s : State) (wk : Nat) (p : MmaPar) (base t r c : Nat) : Nat :=
  let x := tileReg p base t r c
  if p.c = 1 then (s.vgetp (warpTh wk x.1) x.2).toNat else (s.vget (warpTh wk x.1) x.2).toNat

/-- An element of a D tile written. -/
def State.tileSet (s : State) (wk : Nat) (p : MmaPar) (t r c v : Nat) : State :=
  let x := tileReg p p.db t r c
  if p.c = 1 then s.vsetp (warpTh wk x.1) x.2 (BitVec.ofNat 64 v) else s.vset (warpTh wk x.1) x.2 (BitVec.ofNat 32 v)

/-- The constant of masked elements at the accumulator's format (R180). -/
def MmaPar.constCode (p : MmaPar) : Nat := if p.c = 1 then Fmt.f64.round .rne false (Fmt.f32.value p.tconst) else p.tconst

/-! Register ownership (R81, R179). -/

/-- The registers of a range in all 32 lanes of a warp. -/
def rangeKeys (wk : Nat) (x : Nat × Nat) : List Nat := (warpThs wk).flatMap (fun th => (upFrom x.1 x.2).map (vkey th))

/-- An operation added to the owners of registers. -/
def ownAdd (m : SMap (List Nat)) (ks : List Nat) (id : Nat) : SMap (List Nat) :=
  ks.foldl (fun m k => SMap.ins m k ((SMap.look m k).getD [] ++ [id])) m

/-- An operation taken from the owners of registers. -/
def ownDel (m : SMap (List Nat)) (ks : List Nat) (id : Nat) : SMap (List Nat) :=
  ks.foldl (fun m k =>
    match SMap.look m k with
    | some l => let l' := l.filter (· ≠ id)
                if l'.isEmpty then SMap.del m k else SMap.ins m k l'
    | none => m) m

/-- Every register listed for an operation is released. -/
def ownClear (m : SMap (List Nat)) (id : Nat) : SMap (List Nat) :=
  (m.map (fun e => (e.1, e.2.filter (· ≠ id)))).filter (fun e => !e.2.isEmpty)

/-- The ranges an MMA still reads from pass (t, kb) on (R179). -/
def MmaPar.stillRead (p : MmaPar) (t kb : Nat) : List (Nat × Nat) :=
  ((List.range p.tiles).filter (fun u => decide (t ≤ u) && !p.allMasked u)).flatMap (fun u =>
    let i := u % p.mt
    let n := u / p.mt
    let js := ((List.range p.blocks).filter (fun b => decide (t < u) || decide (kb ≤ b))).map (fun b => b * p.bl / p.kp)
    let abs_ := js.eraseDups.flatMap (fun j =>
      [(p.ab + 8 * (j * p.mt + i), 8), (p.bb + 8 * (j * p.nt + n), 8)]
      ++ (if p.sab = 255 then [] else [(p.sab + j * p.mt + i, 1)]) ++ (if p.sbb = 255 then [] else [(p.sbb + j * p.nt + n, 1)]))
    abs_ ++ (if p.ovw ∨ (t = u ∧ kb ≠ 0) then [] else [(p.cb + p.q * u, p.q)]))

/-- Everything an MMA reads. -/
def MmaPar.readKeys (p : MmaPar) (wk : Nat) : List Nat := ((p.stillRead 0 0).flatMap (rangeKeys wk)).eraseDups

/-! Completion words and tokens (R80, R171, R172). -/

/-- The completion word (R171). -/
def completionWord (seq : W16) (count trap kind : Nat) (sus viol badp : Bool) : W64 :=
  BitVec.ofNat 64 (1 + 2 * badp.toNat + 4 * viol.toNat + 8 * sus.toNat + 2 ^ 12 * kind + 2 ^ 16 * trap
    + 2 ^ 32 * min count 65535 + 2 ^ 48 * seq.toNat)

/-- A completion word is written into its token register; a TRAP field arms it (R80, R172). -/
def State.writeToken (s : State) (wk : Nat) (tok : RegField) (word : W64) (trap : Nat) : State :=
  if tok = 63 then s
  else
    let s1 := { (s.sset wk tok.toNat word) with sbusy := SMap.del s.sbusy (skey wk tok.toNat) }
    if trap = 0 then s1 else { s1 with armed := SMap.ins s1.armed (skey wk tok.toNat) trap }

/-- An engine operation ends: its registers, locks and table entry are free and its word is written (R81, R171, R189). -/
def State.engDone (s : State) (id : Nat) (o : EngOp) : State :=
  let s := s.unlatch false [skey o.wk o.tok.toNat]
  let s1 := { s with eng := SMap.del s.eng id, vown := ownClear s.vown id, vread := ownClear s.vread id,
                     clusters := SMap.upd s.clusters (o.core / 4) (fun c => { c with locks := c.locks.filter (fun l => l.op ≠ id) }) }
  s1.writeToken o.wk o.tok (completionWord o.seq o.count o.trap o.kind o.sus o.viol false) o.trap

/-! MMA at issue (R174, R176, R179). -/

/-- The sequence number of a warp's next MMA or copy form (R171). -/
def State.takeSeq (s : State) (wk : Nat) : W16 × State :=
  (((SMap.look s.warps wk).map Warp.seq).getD 0, s.updWarp wk (fun w => { w with seq := w.seq + 1 }))

/-- An invalid block completes at once with BADP (R174, R187). -/
def State.badParam (s : State) (wk : Nat) (tok : RegField) (kind : Nat) : State :=
  let q := s.takeSeq wk
  q.2.writeToken wk tok (completionWord q.1 0 0 kind false false true) 0

/-- The reservation-table entries of a cluster (R174, R190). -/
def State.tableUse (s : State) (cl : Nat) : Nat := (s.eng.filter (fun e => e.2.core / 4 == cl)).length

/-- A block of scratchpad read by the elected thread as an LDS would (R174): the warp's queued stores are seen. -/
def State.readBlock (s : State) (wk core : Nat) (a : LaneAcc) (n : Nat) : List Byte :=
  (upFrom a.pa n).map (s.readByte s.nid wk core false a.space)

/-- A block may not be read yet: an older acquire or FENCE of the warp is not complete (R157, R241). -/
def State.blockHeld (s : State) (wk : Nat) : Bool :=
  s.ops.any (fun e => e.2.wk == wk && !e.2.held && (e.2.kind == .fence || (e.2.acq.isSome && e.2.kind.reads)))

/-- How the issue of an engine form for one warp ends. -/
inductive EngIssue where
  | done (s : State) (traps : List (Nat × Nat))   -- threads and codes
  | wait (w : Stall)
  | park (s : State)
  deriving DecidableEq, Repr

/-- MMA for one warp (R174). -/
def mmaIssue (f : En) (s : State) (wk th core : Nat) (pc : W64) : EngIssue :=
  let q : Ask := { wh := .local_, addr := s.sget wk f.p.toNat, width := 64, align := 64, isRead := true, isWrite := false, watch := false }
  match s.check th q with
  | .trap c => .done s [(th, c)]
  | .park _ => .done s []
  | .ok a =>
    if s.blockHeld wk then .wait .order else
    let b := s.readBlock wk core a 64
    match s.gridOfTeam (teamOfTh th) with
    | none => .done s []
    | some g =>
      match mmaPar g.nv b with
      | none => .done (s.badParam wk f.t 2) []
      | some p =>
        if 16 ≤ s.tableUse (core / 4) then .wait .reservation
        else if (rangeKeys wk p.dRange).any (fun k => (SMap.look s.vbusy k).isSome) then .wait .register
        else
          let n := s.newId
          let sq := n.2.takeSeq wk
          let o : EngOp :=
            { wk := wk, th := th, core := core, ctx := g.ctx, kind := 2, tok := f.t, seq := sq.1, pc := pc, blk := b,
              bound := ((SMap.look s.ctxs g.ctx).getD {}).bound p.bidx, exts := [], port := 0, begun := false, tile := 0, kblk := 0,
              acc := [], count := 0, sus := false, viol := false, trap := 0, issued := s.now, walked := false, cover := [], id := n.1 }
          let s1 := (sq.2.busyScalar wk f.t n.1)
          .done { s1 with eng := SMap.ins s1.eng n.1 o
                          vown := ownAdd s1.vown (rangeKeys wk p.dRange) n.1
                          vread := ownAdd s1.vread (p.readKeys wk) n.1 } []

/-- The shape of MMA and the copy forms (R166): once per warp with an active thread, for its elected thread. A warp that finds its
table full makes the group wait; the warps already served are not served again. -/
def engForm (i : Instr) (f : En) (s : State) (one : State → Nat → Nat → Nat → W64 → EngIssue) : Host.Outcome State Fault Refusal :=
  issue i f.g s (fun x s =>
    let todo := x.wks.filter (fun wk => x.act.any (fun th => s.wkOf th == wk && !((SMap.look s.threads th).map Thread.rdvDone).getD false))
    let step := fun (p : State × List TrapReq × Option Stall) wk =>
      match x.act.find? (fun th => s.wkOf th == wk) with
      | none => p
      | some th =>
        match one p.1 wk th x.g.core x.g.pc with
        | .wait w => (p.1, p.2.1, some w)
        | .park s1 => ((x.act.filter (fun t => s.wkOf t == wk && t != th)).foldl (fun s t => s.updThread t (fun t => { t with rdvDone := true })) s1,
            p.2.1, p.2.2)
        | .done s1 ts =>
          (((x.act.filter (fun t => s.wkOf t == wk)).foldl (fun s t => s.updThread t (fun t => { t with rdvDone := true })) s1),
            p.2.1 ++ ts.map (fun t => trapAt x.g t.1 t.2), p.2.2)
    let r := todo.foldl step (s, [], none)
    match r.2.2 with
    | some w => .wait (r.1.deliver r.2.1) w
    | none => .done (x.ths.foldl (fun s th => s.updThread th (fun t => { t with rdvDone := false })) r.1) r.2.1)

/-- MMA (R174). -/
def execMma (f : En) (s : State) : Host.Outcome State Fault Refusal := engForm (.mma f) f s (mmaIssue f)

/-! MMA_PASS (R178, R180 to R182). -/

/-- A copy or an MMA begins once its warp's older accesses are performed at .clus scope: its issue is a release there (R241). A load that a
hard halt has stopped is saved, and holds nothing back (R193, R365). -/
def State.engReleased (s : State) (id : Nat) (o : EngOp) : Bool :=
  !((s.older id o.wk).any (fun e => !(e.2.kind == .load && s.dropsReturn e.2) && (e.2.kind.reads || e.2.kind == .store || e.2.wide)))
    && !(s.pend.any (fun e => e.2.core == o.core && e.2.stage == .core && !e.2.eng))

/-- Ticks of a count of master cycles (R4). -/
def masterTicks (n : Nat) : Nat := 75 * n

/-- The next pass of a cluster's engine needs a rise notice (R372): the engine is idle, or the pass raises the projected current by more
than 4 A, which the spec does not compute and is free (assumption 130). -/
def State.needsNotice (s : State) (cl id : Nat) (o : EngOp) : Bool :=
  (match (s.cluster cl).passAt with
   | some t => decide (t + masterTicks 256 ≤ s.now)
   | none => true) || Config.passRaises id o.tile o.kblk

/-- A notice was sent at least 64 master cycles ago and is still valid (R372). -/
def State.noticed (s : State) (cl : Nat) : Bool :=
  match (s.cluster cl).notice with
  | some t => decide (t + masterTicks 64 ≤ s.now ∧ s.now ≤ t + masterTicks 1024)
  | none => false

/-- The first pass of an MMA waits for older results it reads and for older operations of its warp (R174, R179, R241). -/
def State.mmaReady (s : State) (id : Nat) (o : EngOp) (p : MmaPar) : Bool :=
  let rk := p.readKeys o.wk
  let wk := rangeKeys o.wk p.dRange
  let older := fun (m : SMap (List Nat)) k => ((SMap.look m k).getD []).any (fun j => decide (j < id))
  !rk.any (fun k => (SMap.look s.vbusy k).isSome) && !(rk ++ wk).any (fun k => older s.vown k || older s.vread k) && s.engReleased id o

/-- The next tile from `t` on that is not masked whole: `n` of them are looked at (R180). -/
def MmaPar.unmasked (p : MmaPar) : Nat → Nat → Nat
  | 0, t => t
  | n + 1, t => if t < p.tiles ∧ p.allMasked t then p.unmasked n (t + 1) else t

/-- A pass of an MMA is left and waits for a notice (R180, R372): tiles that are masked whole need none. -/
def State.noticeDue (s : State) (id : Nat) (o : EngOp) (p : MmaPar) : Bool :=
  let t := p.unmasked 4 o.tile
  decide (t < p.tiles) && s.needsNotice (o.core / 4) id { o with tile := t } && !s.noticed (o.core / 4)

/-- An MMA whose next pass only a rise notice holds back (R372). -/
def State.awaitsNotice (s : State) (id : Nat) (o : EngOp) : Bool :=
  o.kind == 2 && decide (o.core < 4096) && (match (s.gridOfTeam (teamOfTh o.th)).bind (fun g => mmaPar g.nv o.blk) with
    | some p => s.noticeDue id o p && (o.begun || s.mmaReady id o p)
    | none => false)

/-- The arbiter sends the notices that its engines' next passes need (R372); one that has run out is sent again. -/
def State.settleNotices (s : State) : State :=
  s.eng.foldl (fun s e =>
    let cl := e.2.core / 4
    let sent := match (s.cluster cl).notice with | some t => decide (s.now ≤ t + masterTicks 1024) | none => false
    if s.awaitsNotice e.1 e.2 && !sent then
      { s with clusters := SMap.ins s.clusters cl { s.cluster cl with notice := some s.now } }
    else s) s

/-- Residue mismatches of an engine's pass (R384 to R386): cured by the recomputation, or recurring. -/
def State.residues (s : State) (o : EngOp) (kind n : Nat) : State :=
  let k := s.physOf (o.core / 4)
  (List.range n).foldl (fun s _ => s.reportError { hop := 8, kind := kind, die := k / 264, sector := k % 264 / 88, unit := k, pa := 0
                                                   fe := o.ctx / 8, ctx := o.ctx % 8 }) s

/-- A suspect result (R181, R384): SUS, COUNT, the context's count, TRAP with STRAP; the engine's touchmark is charged. -/
def State.suspect (s : State) (o : EngOp) (n : Nat) (strap : Bool) : State × EngOp :=
  if n = 0 then (s, o)
  else
    let s1 := s.updCtx o.ctx (fun c => { c with suspects := BitVec.ofNat 32 (min (c.suspects.toNat + n) 0xFFFFFFFF) })
    let s2 := ((s1.errBit 9).chargeSuspect (o.core / 4) n).suspectEvent (o.core / 4)
    (s2, { o with sus := true, count := min (o.count + n) 65535, trap := if strap then 0x0C else o.trap })

/-- A tile's results are written in all 32 lanes and its registers released: masked elements take the constant, the others pass the
bound check (R178, R180, R182). -/
def State.tileWrite (s : State) (id : Nat) (o : EngOp) (p : MmaPar) : State × EngOp :=
  let org := p.origin o.tile
  let m : Fmt := if p.c = 1 then .f64 else .f32
  let cells := (List.range 256).map (fun e => (e / 16, e % 16, (o.acc[e]?).getD 0))
  let r := cells.foldl (fun (x : State × Nat) e =>
    if p.masked (org.1 + e.1) (org.2 + e.2.1) then (x.1.tileSet o.wk p o.tile e.1 e.2.1 p.constCode, x.2)
    else if p.be then
      let c := boundElem o.bound m e.2.2
      (x.1.tileSet o.wk p o.tile e.1 e.2.1 (if o.bound.act = 1 then c.2 else e.2.2), x.2 + c.1.toNat)
    else (x.1.tileSet o.wk p o.tile e.1 e.2.1 e.2.2, x.2)) (s, 0)
  let ks := rangeKeys o.wk (p.db + p.q * o.tile, p.q)
  let s1 := (if r.2 = 0 then r.1 else r.1.chargeBound o.ctx p.bidx r.2).unlatch true ks
  ({ s1 with vown := ownDel s1.vown ks id },
   { o with viol := o.viol || decide (r.2 ≠ 0), trap := if r.2 ≠ 0 ∧ o.bound.act = 2 then 0x0B else o.trap,
            tile := o.tile + 1, kblk := 0, acc := [] })

/-- Tiles that are masked whole take no pass (R180). -/
def State.skipMasked : Nat → Nat → MmaPar → State × EngOp → State × EngOp
  | 0, _, _, x => x
  | n + 1, id, p, (s, o) =>
    if o.tile < p.tiles ∧ p.allMasked o.tile then
      let ks := rangeKeys o.wk (p.db + p.q * o.tile, p.q)
      let s1 := if p.tfill then ((List.range 256).foldl (fun s e => s.tileSet o.wk p o.tile (e / 16) (e % 16) p.constCode) s).unlatch true ks
        else s
      State.skipMasked n id p ({ s1 with vown := ownDel s1.vown ks id },
        { o with tile := o.tile + 1, kblk := 0, acc := [] })
    else (s, o)

/-- One granted pass of an MMA (R178): a tile's K-block is summed; the tile is written after its last; the completion word follows the
last tile. Tiles masked whole need no pass and no notice (R180, R372). `faulty` names elements that the silicon gets wrong, `resid` counts
residue mismatches that recur on the recomputation, `cured` those that do not (R181, R384). -/
def State.mmaPass (s : State) (id : Nat) (o : EngOp) (p : MmaPar) (faulty : List (Nat × Nat)) (resid cured : Nat) : State :=
  let cl := o.core / 4
  if (!o.begun && !s.mmaReady id o p) || s.noticeDue id o p then s
  else
    let x := State.skipMasked 4 id p (s, { o with begun := true })
    if p.tiles ≤ x.2.tile then x.1.engDone id x.2
    else
      let x : State × EngOp := ({ x.1 with clusters := SMap.ins x.1.clusters cl { x.1.cluster cl with passAt := some s.now } }, x.2)
      let o := x.2
      let s := x.1
      let org := p.origin o.tile
      let start := if o.kblk ≠ 0 then o.acc
        else (List.range 256).map (fun e => if p.ovw then 0 else s.tileGet o.wk p p.cb o.tile (e / 16) (e % 16))
      let res := (List.range 256).map (fun e =>
        s.mmaStep o.wk p (org.1 + e / 16) (org.2 + e % 16) (o.kblk * p.bl) ((start[e]?).getD 0)
          ((faulty.find? (fun f => f.1 == e)).map Prod.snd))
      let sus := (res.filter Prod.snd).length + resid
      let o1 := { o with acc := res.map Prod.fst, kblk := o.kblk + 1 }
      let s1 := s.updCtx o.ctx (fun c => { c with passes := c.passes + 1 })
      let s1 := (s1.residues o 0 cured).residues o 1 resid
      let y := s1.suspect o1 sus p.strap
      let z := if o1.kblk < p.blocks then y else y.1.tileWrite id y.2 p
      let w := State.skipMasked 4 id p z
      if p.tiles ≤ w.2.tile then w.1.engDone id w.2
      else
        let still := (p.stillRead w.2.tile w.2.kblk).flatMap (rangeKeys o.wk)
        let gone := (w.1.vread.filter (fun e => e.2.contains id && !still.contains e.1)).map Prod.fst
        { w.1 with eng := SMap.ins w.1.eng id w.2, vread := ownDel w.1.vread gone id }

/-! Statistics, bound and token forms (R173, R183, R191, R192). -/

/-- MSTAT (R183, R194). -/
def execMstat (f : En) (s : State) : Host.Outcome State Fault Refusal :=
  let sel := bitsOf f.emod 0 2
  if s.curCtx.det && sel ≠ 0 then trapAll (.mstat f) f.g s 0x11
  else issue (.mstat f) f.g s (fun x s => .done (x.wks.foldl (fun s wk =>
    match s.gridOfTeam x.g.team with
    | none => s
    | some g =>
      let c := (SMap.look s.ctxs g.ctx).getD {}
      let mine := fun k => (s.eng.filter (fun e => e.2.core / 4 == x.g.core / 4 && (e.2.kind == 2) == k)).length
      let v : W64 := match sel with
        | 0 => c.suspects.setWidth 64
        | 1 => c.passes
        | _ => BitVec.ofNat 64 (mine true + 256 * mine false)
      let s1 := s.sset wk f.d.toNat v
      if f.emod.getLsbD 2 then
        s1.updCtx g.ctx (fun c => if sel = 0 then { c with suspects := 0 } else { c with passes := 0 })
      else s1) s) [])

/-- The context's bound register changed, for the issuing group. -/
def State.updBound (s : State) (tk k : Nat) (h : Bound → Bound) : State :=
  match s.gridOfTeam tk with
  | some g => s.updCtx g.ctx (fun c => { c with bounds := SMap.ins c.bounds k (h (c.bound k)) })
  | none => s

/-- BNDSET (R192). -/
def execBndset (f : En) (s : State) : Host.Outcome State Fault Refusal :=
  issue (.bndset f) f.g s (fun x s => .done (x.wks.foldl (fun s wk =>
    let v := s.sget wk f.p.toNat
    s.updBound x.g.team (f.x.toNat % 16) (fun b =>
      { b with low := lo32 v, high := hi32 v, act := f.x.toNat / 16 % 4,
               count := if f.emod.getLsbD 0 then 0 else b.count, sticky := if f.emod.getLsbD 0 then false else b.sticky })) s) [])

/-- BNDGET (R192). -/
def execBndget (f : En) (s : State) : Host.Outcome State Fault Refusal :=
  issue (.bndget f) f.g s (fun x s => .done (x.wks.foldl (fun s wk =>
    let k := f.x.toNat % 16
    let b := (s.ctxOfTeam x.g.team).bound k
    if f.emod.getLsbD 0 then
      let s1 := s.sset wk f.d.toNat (BitVec.ofNat 64 (b.count.toNat + 2 ^ 32 * b.sticky.toNat + 2 ^ 33 * b.act))
      if f.emod.getLsbD 1 then s1.updBound x.g.team k (fun b => { b with count := 0, sticky := false }) else s1
    else s.sset wk f.d.toNat (pair b.low b.high)) s) [])

/-- BNDSEL (R192). -/
def execBndsel (f : En) (s : State) : Host.Outcome State Fault Refusal :=
  issue (.bndsel f) f.g s (fun x s =>
    .done (x.wks.foldl (fun s wk => s.updWarp wk (fun w => { w with bsel := f.x.toNat % 16 })) s) [])

/-- TWAIT (R173): the interlock of a pending token is the wait. -/
def execTwait (f : En) (s : State) : Host.Outcome State Fault Refusal :=
  perWarp (.twait f) f.g s (fun wk s => s.sset wk f.d.toNat (s.sget wk f.t.toNat))

/-- TPOLL (R173, R194): 0 while the token is pending; a register that an SLD has yet to write is interlocked (R79). -/
def execTpoll (f : En) (s : State) : Host.Outcome State Fault Refusal :=
  if s.curCtx.det then trapAll (.tpoll f) f.g s 0x11
  else issue (.tpoll f) f.g s (fun x s =>
    let owner := fun wk => SMap.look s.sbusy (skey wk f.t.toNat)
    if x.wks.any (fun wk => (owner wk).any (fun o => (SMap.look s.ops o).isSome)) then .stall .token
    else .done (x.wks.foldl (fun s wk =>
      s.sset wk f.d.toNat (if (owner wk).isSome then 0 else s.sget wk f.t.toNat)) s) [])

end Sys2Proof.Machine
end

