-- ==== Sys2Proof/Machine/Copy.lean ====
section
/-!
DEFINITION. The copy forms, opcodes 0xD4 to 0xD8, and the walk of a copy (R184 to R190, R193, R247, R248).
-/
namespace Sys2Proof.Machine

/-! The descriptor (R185, R187). -/

/-- One dimension: extent and signed byte stride. -/
structure CDim where
  e : Nat
  d : Int
  deriving DecidableEq, Repr

/-- A descriptor, read (R185). -/
structure Desc where
  kind  : Nat      -- OP − 0xD0: 4 CPYIN, 5 CPYST, 6 CPYX, 7 CPYG, 8 CPYR
  src   : Nat
  dst   : Nat
  scale : Nat
  sf    : ElFmt
  df    : ElFmt
  scl   : Nat
  ef    : Bool
  sat   : Bool
  panel : Bool
  chk   : Bool
  bidx  : Nat
  dims  : List CDim  -- NDIM of them
  deriving DecidableEq, Repr

/-- Source and destination formats are one, or a narrowing (R187). -/
def isNarrow (sf df : ElFmt) : Bool :=
  match sf, df with
  | .flt .f32, .flt (.f8 _ _ _) | .flt .f16, .flt (.f8 _ _ _) | .flt .bf16, .flt (.f8 _ _ _) => true
  | _, _ => false

/-- CPYST writes the strided side; every other form reads it (R184). -/
def Desc.stores (c : Desc) : Bool := c.kind == 5

/-- Elements along dimension 0. -/
def Desc.e0 (c : Desc) : Nat := match c.dims with | x :: _ => x.e | [] => 0
/-- Elements along dimension 1, 1 where there is none. -/
def Desc.e1 (c : Desc) : Nat := match c.dims with | _ :: x :: _ => x.e | _ => 1
/-- Rows: index tuples of the dimensions above 0. -/
def Desc.rows (c : Desc) : Nat := (c.dims.drop 1).foldl (fun n x => n * x.e) 1
/-- Blocks of 32 elements in a row. -/
def Desc.nb (c : Desc) : Nat := (c.e0 + 31) / 32
/-- Blocks in all. -/
def Desc.blocks (c : Desc) : Nat := c.rows * c.nb
/-- The format of the strided side, and of the compact side. -/
def Desc.strided (c : Desc) : ElFmt := if c.stores then c.df else c.sf
/-- The compact side's format. -/
def Desc.compact (c : Desc) : ElFmt := if c.stores then c.sf else c.df
/-- The strided side's address. -/
def Desc.sbase (c : Desc) : Nat := if c.stores then c.dst else c.src
/-- The compact side's address. -/
def Desc.cbase (c : Desc) : Nat := if c.stores then c.src else c.dst
/-- Elements of a panel row (R168). -/
def Desc.kp (c : Desc) : Nat := 64 / c.compact.size
/-- Panels along dimensions 1 and 0 (R186). -/
def Desc.nr (c : Desc) : Nat := (c.e1 + 15) / 16
/-- Panels along dimension 0. -/
def Desc.nk (c : Desc) : Nat := (c.e0 + c.kp - 1) / c.kp
/-- Panels in all. -/
def Desc.panels (c : Desc) : Nat := c.nr * c.nk * (c.rows / max c.e1 1)

/-- The byte offset of i0 on the strided side (R186). -/
def Desc.off0 (c : Desc) (i0 : Nat) : Int :=
  let z := c.strided.size
  if c.scl = 1 then (i0 / 32 * (1 + 32 * z) + 1 + i0 % 32 * z : Nat)
  else match c.dims with
    | x :: _ => x.d * i0
    | [] => 0

/-- The byte offset of a row on the strided side. -/
def rowOff : List CDim → Nat → Int
  | [], _ => 0
  | x :: xs, r => x.d * (r % max x.e 1 : Nat) + rowOff xs (r / max x.e 1)

/-- The strided address of element (i0, row). -/
def Desc.spos (c : Desc) (i0 row : Nat) : Int := c.sbase + c.off0 i0 + rowOff (c.dims.drop 1) row

/-- The strided address of a block's interleaved scale byte (R186). -/
def Desc.scalePos (c : Desc) (b row : Nat) : Int :=
  c.sbase + (b * (1 + 32 * c.strided.size) : Nat) + rowOff (c.dims.drop 1) row

/-- The panel that holds element (i0, row), and its row in it (R186). -/
def Desc.panelOf (c : Desc) (i0 row : Nat) : Nat × Nat :=
  let i1 := row % max c.e1 1
  (row / max c.e1 1 * c.nr * c.nk + i0 / c.kp * c.nr + i1 / 16, i1 % 16)

/-- The compact offset of element (i0, row) (R168, R186). -/
def Desc.cpos (c : Desc) (i0 row : Nat) : Nat :=
  let z := c.compact.size
  if c.panel then
    let p := c.panelOf i0 row
    let b := i0 % c.kp * z
    1056 * p.1 + 64 * p.2 + 4 * ((b / 4) ^^^ p.2) + b % 4
  else (row * c.e0 + i0) * z

/-- The strip bytes of the block of 32 from i0 (R168): two panels hold it where elements are binary32. -/
def Desc.strips (c : Desc) (i0 row : Nat) : List Nat :=
  let at_ := fun i => let p := c.panelOf i row
    1056 * p.1 + 1024 + 2 * p.2 + (if c.compact.size = 1 then i / 32 % 2 else 0)
  if c.compact.size = 4 ∧ i0 + 16 < c.e0 then [at_ i0, at_ (i0 + 16)] else [at_ i0]

/-- The byte of a separate scale tensor (R186). -/
def Desc.sepPos (c : Desc) (b row : Nat) : Nat := c.scale + row * c.nb + b

/-- Lowest and highest byte of the strided side: the hull (R189). -/
def Desc.sHull (c : Desc) : Int × Int :=
  let z : Int := c.strided.size
  let first : Int × Int := if c.scl = 1 then (0, c.off0 (c.e0 - 1) + z - 1)
    else match c.dims with
      | x :: _ => (min 0 (x.d * ((x.e : Int) - 1)), max 0 (x.d * ((x.e : Int) - 1)) + z - 1)
      | [] => (0, z - 1)
  (c.dims.drop 1).foldl (fun h x =>
    let t := x.d * ((x.e : Int) - 1)
    (h.1 + min 0 t, h.2 + max 0 t)) (c.sbase + first.1, c.sbase + first.2)

/-- Bytes of the compact side. -/
def Desc.cBytes (c : Desc) : Nat := if c.panel then 1056 * c.panels else c.rows * c.e0 * c.compact.size

/-- The whole separate scale tensor. -/
def Desc.usesScale (c : Desc) : Bool := c.scl == 2 || (c.scl == 3 && !c.panel)

/-- A descriptor read; none where R187 calls it invalid, hulls apart. -/
def descOf (kind : Nat) (port : W64) (b : List Byte) : Option Desc :=
  let ctrl := blkField b 24 8
  let fld := fun lo n => ctrl / 2 ^ lo % 2 ^ n
  let nd := fld 0 4
  let dim := fun k => CDim.mk (blkField b (32 + 9 * k) 3) (intOf true 48 (blkField b (35 + 9 * k) 6))
  match elFmt (fld 4 8), elFmt (fld 12 8) with
  | some sf, some df =>
    let c : Desc :=
      { kind := kind, src := blkField b 0 8, dst := blkField b 8 8, scale := blkField b 16 8, sf := sf, df := df, scl := fld 20 2,
        ef := decide (fld 22 1 = 1), sat := decide (fld 23 1 = 1), panel := decide (fld 24 1 = 1), chk := decide (fld 25 1 = 1),
        bidx := fld 26 4, dims := (List.range nd).map dim }
    let nar := isNarrow sf df
    let plain := match c.strided with | .int8 | .raw _ | .flt .f64 => true | _ => false
    let ok := decide (1 ≤ nd ∧ nd ≤ 10) && decide (ctrl < 2 ^ 30) && (b.drop 122).all (· == 0)
      && (List.range 10).all (fun k => if k < nd then (dim k).e != 0 else dim k == CDim.mk 0 0)
      && (sf == df || (nar && (kind == 4 || kind == 6 || kind == 7)))
      && (!c.ef || nar) && (decide (c.scl ≠ 3) || nar)
      && !((c.scl == 1 || c.scl == 2) && (plain || kind == 8 || (!c.panel && kind != 5)))
      && !(c.scl == 1 && !decide ((dim 0).d = (c.strided.size : Int)))
      && !(c.panel && (decide (nd < 2) || c.compact.size == 8 || kind == 7 || kind == 8))
      && !(!c.panel && kind == 5 && c.scl != 0)
      && !(c.chk && (kind != 5 || (df != .flt .f32 && df != .flt .f16)))
      && !(kind == 8 && decide (16 ≤ port.toNat))
    if ok then some c else none
  | _, _ => none

/-! Registration (R189). -/

/-- The extents that cover a range of addresses, or the first address that misses. -/
def State.coverRange (s : State) (core hi : Nat) : Nat → Nat → List Extent → Except Nat (List Extent)
  | 0, a, _ => .error a
  | n + 1, a, es =>
    if hi < a then .ok es
    else match s.extentAt core a with
      | some e => s.coverRange core hi n (e.va + e.len) (es ++ [e])
      | none => .error a

/-- How the checks of R189 end. -/
inductive RegCheck where
  | ok (exts : List Extent) (src : Hull) (dst : Option Hull)
  | trap (code : Nat)
  | park (va : Nat)
  | invalid
  deriving DecidableEq, Repr

/-- The scratchpad hull of a compact side, or ADDRESS (R143, R144, R189). -/
def State.compactHull (s : State) (th : Nat) (c : Desc) : Option Hull :=
  (s.locate (if c.kind = 6 then .group else .local_) th (BitVec.ofNat 64 c.cbase) c.cBytes).map
    (fun p => { space := p.1, lo := p.2, hi := p.2 + c.cBytes })

/-- The checks of R189 in order, over both sides and a separate scale tensor. -/
def State.copyCheck (s : State) (th core : Nat) (c : Desc) : RegCheck :=
  let sh := c.sHull
  let globalDst := c.kind == 7
  let scaleLen := if c.usesScale then c.rows * c.nb else 0
  let scaleBad := decide (0 < scaleLen ∧ 2 ^ 48 < c.scale + scaleLen)
  let sBad := decide (sh.1 < 0 ∨ 2 ^ 48 ≤ sh.2)
  let dBad := (globalDst || c.kind == 8) && decide (2 ^ 48 < c.dst + c.cBytes)
  let sc := if globalDst || c.kind == 8 then none else s.compactHull th c
  let strided : Hull := { space := .glob, lo := sh.1.toNat, hi := sh.2.toNat + 1 }
  let gdst : Hull := { space := .glob, lo := c.dst, hi := c.dst + c.cBytes }
  if globalDst && meets strided gdst then .invalid
  else if sBad || dBad || scaleBad || (!globalDst && c.kind != 8 && sc.isNone) then .trap 0x06
  else
    let ck := ((s.gridOfTeam (teamOfTh th)).map Grid.ctx).getD 0
    let windows := s.windowRange ck sh.1.toNat sh.2.toNat c.stores
      || (globalDst && s.windowRange ck c.dst (c.dst + c.cBytes - 1) true)
      || (0 < scaleLen && s.windowRange ck c.scale (c.scale + scaleLen - 1) (c.stores || c.scl == 3))
    if windows then .trap 0x08
    else
      match s.coverRange core sh.2.toNat 80 sh.1.toNat [],
            (if globalDst then s.coverRange core (c.dst + c.cBytes - 1) 80 c.dst [] else .ok []),
            (if 0 < scaleLen then s.coverRange core (c.scale + scaleLen - 1) 80 c.scale [] else .ok []) with
      | .error a, _, _ => .park a
      | _, .error a, _ => .park a
      | _, _, .error a => .park a
      | .ok e1, .ok e2, .ok e3 =>
        let okS := e1.all (fun e => if c.stores then e.w else e.r)
        let okD := e2.all (fun e => e.w)
        let okC := e3.all (fun e => if c.stores || c.scl == 3 then e.w else e.r)
        if !(okS && okD && okC) then .trap 0x08
        else
          let comp := if globalDst then some gdst else sc
          if c.stores then .ok (e1 ++ e2 ++ e3) (comp.getD strided) (some strided)
          else .ok (e1 ++ e2 ++ e3) strided (if c.kind = 8 then none else comp)

/-- Watch hits of both hulls (R189 row 4, R367). -/
def State.copyWatch (s : State) (ck team : Nat) (kind : Nat) (src : Hull) (dst : Option Hull) : State :=
  let one := fun (s : State) (h : Hull) (bit : Nat) => if h.space = .glob then s.watchRange ck h.lo h.hi bit 0 kind team else s
  match dst with
  | some d => one (one s src 1) d 2
  | none => one s src 1

/-- A copy form for one warp (R184, R187, R189). -/
def copyIssue (kind : Nat) (f : En) (s : State) (wk th core : Nat) (pc : W64) : EngIssue :=
  let q : Ask := { wh := .local_, addr := s.sget wk f.p.toNat, width := 128, align := 64, isRead := true, isWrite := false, watch := false }
  match s.check th q with
  | .trap c => .done s [(th, c)]
  | .park _ => .done s []
  | .ok a =>
    if s.blockHeld wk then .wait .order else
    let b := s.readBlock wk core a 128
    let port := if kind = 8 then s.sget wk f.x.toNat else 0
    match s.gridOfTeam (teamOfTh th), descOf kind port b with
    | some g, some c =>
      match s.copyCheck th core c with
      | .invalid => .done (s.badParam wk f.t kind) []
      | .trap code => .done s [(th, code)]
      | .park va =>
        let e := mkEntry 1 0 6 (s.genOf wk) pc [(laneOfTh th, { addr := BitVec.ofNat 64 va, data := 0, stat := 0 })]
        .park ((s.pushEntry wk e).1.park th pc)
      | .ok exts src dst =>
        if 32 ≤ (s.cluster (core / 4)).locks.length then .wait .rangeLock
        else if 16 ≤ s.tableUse (core / 4) then .wait .reservation
        else
          let s0 := s.copyWatch g.ctx ((((SMap.look s.teams (teamOfTh th)).map Team.idx)).getD 0) kind src dst
          let n := s0.newId
          let sq := n.2.takeSeq wk
          let o : EngOp :=
            { wk := wk, th := th, core := core, ctx := g.ctx, kind := kind, tok := f.t, seq := sq.1, pc := pc, blk := b,
              bound := ((SMap.look s.ctxs g.ctx).getD {}).bound c.bidx, exts := exts, port := port.toNat, begun := false, tile := 0,
              kblk := 0, acc := [], count := 0, sus := false, viol := false, trap := 0, issued := s.now, walked := false, cover := [], id := n.1
              rdist := Rdist.ofCode (BitVec.ofNat 2 (bitsOf f.emod 0 2)) }
          let s1 := (sq.2.noteUse core (exts.map Extent.va)).busyScalar wk f.t n.1
          let cl := s1.cluster (core / 4)
          let lk : Lock := { op := n.1, ctx := g.ctx, src := src, dst := dst }
          .done { s1 with eng := SMap.ins s1.eng n.1 o
                          clusters := SMap.ins s1.clusters (core / 4) { cl with locks := cl.locks ++ [lk] } } []
    | _, _ => .done (s.badParam wk f.t kind) []

/-- CPYIN (R184). -/
def execCpyin (f : En) (s : State) : Host.Outcome State Fault Refusal := engForm (.cpyin f) f s (copyIssue 4 f)
/-- CPYST (R184). -/
def execCpyst (f : En) (s : State) : Host.Outcome State Fault Refusal := engForm (.cpyst f) f s (copyIssue 5 f)
/-- CPYX (R184). -/
def execCpyx (f : En) (s : State) : Host.Outcome State Fault Refusal := engForm (.cpyx f) f s (copyIssue 6 f)
/-- CPYG (R184). -/
def execCpyg (f : En) (s : State) : Host.Outcome State Fault Refusal := engForm (.cpyg f) f s (copyIssue 7 f)
/-- CPYR (R184, R190). -/
def execCpyr (f : En) (s : State) : Host.Outcome State Fault Refusal := engForm (.cpyr f) f s (copyIssue 8 f)

/-! The walk (R186, R188, R190). -/

/-- The physical address of a copy's global byte, by the extents it was registered with. -/
def EngOp.phys (o : EngOp) (va : Nat) : Nat :=
  match o.exts.find? (fun e => decide (e.va ≤ va ∧ va < e.va + e.len)) with
  | some e => e.phys va
  | none => 0

/-- The compact side's scratchpad and base offset. -/
def State.compactAt (s : State) (o : EngOp) (c : Desc) : Space × Nat :=
  match c.kind with
  | 7 | 8 => (.glob, c.dst)
  | _ => ((s.compactHull o.th c).map (fun h => (h.space, h.lo))).getD (.glob, 0)

/-- One byte a copy reads: its value, and whether it is uncorrectable (R190). -/
def State.copyRead (s : State) (o : EngOp) (sp : Space) (a : Nat) : Byte × Bool :=
  match sp with
  | .glob =>
    let pa := o.phys a
    (s.byte pa, s.badBytes pa 1)
  | .scr owner => (s.scrByte owner a, (SMap.look s.scrBad (scrKey owner a / 4)).isSome)

/-- Bytes a copy reads. -/
def State.copyReads (s : State) (o : EngOp) (sp : Space) (a n : Nat) : Nat × Bool :=
  let bs := (upFrom a n).map (s.copyRead o sp)
  (ofLeBytes (bs.map Prod.fst), bs.any Prod.snd)

/-- Bytes at physical addresses cut into the parts of one sector each (R235, R247). -/
def sectorParts : List (Nat × Byte) → List (Nat × List Byte)
  | [] => []
  | (a, b) :: rest =>
    match sectorParts rest with
    | (a2, bs) :: ps => if a + 1 = a2 ∧ a / 32 = a2 / 32 then (a, b :: bs) :: ps else (a, [b]) :: (a2, bs) :: ps
    | [] => [(a, [b])]

/-- The key under which an engine's own writes wait: no warp's (R241). -/
def engWk (id : Nat) : Nat := 2 ^ 41 + 2 * id

/-- An engine's write to one sector: performed at its cluster's scope, and in memory later (R234, R241, R247). -/
def State.engPend (s : State) (o : EngOp) (va pa : Nat) (bs : List Byte) : State :=
  let n := s.newId
  let e : Pend := { wk := engWk o.id, th := o.th, core := o.core, pa := pa, bytes := bs, stage := .clus, va := BitVec.ofNat 64 va, data := 0, pc := o.pc
                    w := 6, op := o.id, full := false, eng := true, rdist := o.rdist }
  { n.2 with pend := SMap.ins n.2.pend n.1 e }

/-- Bytes a copy writes: to memory, to a scratchpad, or to the peer (R190, R241). -/
def State.copyWrite (s : State) (o : EngOp) (sp : Space) (a : Nat) (bs : List Byte) : State :=
  if o.kind = 8 then
    { s with peers := ((upFrom a bs.length).zip bs).foldl (fun m p => SMap.write 0 m (2 ^ 64 * (o.port % 16) + p.1) p.2) s.peers }
  else match sp with
    | .glob => (sectorParts (((upFrom a bs.length).map o.phys).zip bs)).foldl (fun s p => s.engPend o a p.1 p.2) s
    | .scr owner => s.putScr owner a bs

/-- One element a copy reads, none where it is uncorrectable. -/
def State.copyElem (s : State) (o : EngOp) (sp : Space) (a n : Nat) : Option Nat :=
  let r := s.copyReads o sp a n
  if r.2 then none else some r.1

/-- A byte of panel `k` holds an element of the copy (R186): `off` is its place among the panel's 1,024. -/
def Desc.named (c : Desc) (k off : Nat) : Bool :=
  let r := off / 64
  let w := off % 64
  let b := 4 * ((w / 4) ^^^ r) + w % 4
  let j := k % (c.nr * c.nk)
  decide (j / max c.nr 1 * c.kp + b / c.compact.size < c.e0 ∧ j % max c.nr 1 * 16 + r < c.e1)

/-- The bytes of a copy's panels that no element names: zeros, and 0x7F in every strip (R186, R190). -/
def State.blankPanels (s : State) (o : EngOp) (c : Desc) : State :=
  let p := s.compactAt o c
  (List.range c.panels).foldl (fun s k =>
    let s1 := (List.range 1024).foldl (fun s off =>
      if c.named k off then s else s.copyWrite o p.1 (p.2 + 1056 * k + off) [0]) s
    s1.copyWrite o p.1 (p.2 + 1056 * k + 1024) (List.replicate 32 0x7F)) s

/-- A copy reads nothing that a store of its cluster has made and memory has not (R234, R241): its warp's older accesses are performed
at .clus scope, and writes performed there are in memory. -/
def State.copyReady (s : State) (id : Nat) (o : EngOp) : Bool :=
  let locks := (s.cluster (o.core / 4)).locks
  let mine := locks.find? (fun l => l.op == id)
  let clash := locks.any (fun l => decide (l.op < id) && (match mine with
    | some m => (l.dst.any (meets m.src)) || (m.dst.any (fun d => meets d l.src || l.dst.any (meets d)))
    | none => false))
  !clash && s.engReleased id o
    && !(s.pend.any (fun e => e.2.core / 4 == o.core / 4 && (e.2.stage == .clus || e.2.core == o.core)))

/-- A violation's share in a copy's completion word (R190). -/
def EngOp.addViol (o : EngOp) (n : Nat) : EngOp :=
  if n = 0 then o
  else { o with viol := true, count := min (o.count + n) 65535, trap := if o.bound.act = 2 then 0x0B else o.trap }

/-- The scale of a block: read from the strided side, the separate tensor or the strip; uncorrectable is 0xFF (R186, R190). -/
def State.copyScale (s : State) (o : EngOp) (c : Desc) (b row : Nat) : Option (Nat × Bool) :=
  let p := s.compactAt o c
  let fix := fun (r : Nat × Bool) => if r.2 then (0xFF, true) else r
  if c.stores then
    (if c.scl = 1 ∨ c.scl = 2 then (c.strips (32 * b) row).head?.map (fun k => fix (s.copyReads o p.1 (p.2 + k) 1)) else none)
  else if c.scl = 1 then some (fix (s.copyReads o .glob (c.scalePos b row).toNat 1))
  else if c.scl = 2 then some (fix (s.copyReads o .glob (c.sepPos b row) 1))
  else none

/-- A block's scale byte is written where it goes (R186). -/
def State.putScale (s : State) (o : EngOp) (c : Desc) (b row code : Nat) : State :=
  let p := s.compactAt o c
  let v : List Byte := [BitVec.ofNat 8 code]
  if c.stores then
    (if c.scl = 1 then s.copyWrite o .glob (c.scalePos b row).toNat v else s.copyWrite o .glob (c.sepPos b row) v)
  else if c.panel then (c.strips (32 * b) row).foldl (fun s k => s.copyWrite o p.1 (p.2 + k) v) s
  else s.copyWrite o .glob (c.sepPos b row) v

/-- One block of 32 elements is moved: scales, narrowing, bound check, uncorrectable elements (R186, R188, R190). -/
def State.copyBlock (s : State) (o : EngOp) (c : Desc) : State × EngOp :=
  let b := o.kblk % c.nb
  let row := o.kblk / c.nb
  let comp := s.compactAt o c
  let is := (List.range 32).filter (fun i => decide (32 * b + i < c.e0))
  let sAt := fun i => (c.spos (32 * b + i) row).toNat
  let cAt := fun i => comp.2 + c.cpos (32 * b + i) row
  let xs := is.map (fun i => if c.stores then s.copyElem o comp.1 (cAt i) c.sf.size else s.copyElem o .glob (sAt i) c.sf.size)
  let bad := xs.any Option.isNone
  let sc := s.copyScale o c b row
  let badSc := (sc.map Prod.snd).getD false
  let o1 := if bad || badSc then { o with trap := 0x10 } else o
  let values := match c.sf with
    | .flt m => xs.map (fun x => x.map m.value)
    | _ => []
  let code3 := match c.df with | .flt m => mxScale m values | _ => 0x7F
  let ys : List (Option Nat) := match c.sf, c.df with
    | .flt _, .flt m => if isNarrow c.sf c.df then narrowBlock m .rne c.sat c.ef (if c.scl = 3 then scaleBlock code3 values else values) else xs
    | _, _ => xs
  let chk : List (Option (Bool × Nat)) := match c.df with
    | .flt m => if c.chk then ys.map (fun (y : Option Nat) => y.map (fun v => boundElem o.bound m v)) else []
    | _ => []
  let n := (chk.filter (fun r => (r.map Prod.fst).getD false)).length
  let zs := if c.chk ∧ o.bound.act = 1 then chk.map (fun r => r.map Prod.snd) else ys
  let s1 := (is.zip zs).foldl (fun s p => match p.2 with
    | some v => if c.stores then s.copyWrite o .glob (sAt p.1) (leBytes c.df.size v)
                else s.copyWrite o comp.1 (cAt p.1) (leBytes c.df.size v)
    | none => s) s
  let s2 := match sc with
    | some r => s1.putScale o c b row r.1
    | none => if c.scl = 3 then s1.putScale o c b row code3 else s1
  let s3 := if n = 0 then s2 else s2.chargeBound o.ctx c.bidx n
  (s3, (o1.addViol n))

/-- The sectors a copy's block wrote whole have fresh codes (R368): those that lie within the bytes a finished copy covers. -/
def State.copyFresh (s : State) (o : EngOp) (c : Desc) : State :=
  if c.kind = 5 ∨ c.kind = 7 then
    let whole := fun (k : Nat) => (upFrom (32 * k) 32).all o.cover.contains
    let waits := fun (k : Nat) => s.pend.any (fun e => e.2.op == o.id && e.2.eng && e.2.pa / 32 == k)
    { s with bad := SMap.keep (fun k _ => !whole k || waits k) s.bad
             pend := SMap.mapV (fun _ (p : Pend) => if p.eng && p.op == o.id && whole (p.pa / 32) then { p with full := true } else p) s.pend }
  else s

/-- Whether CPYR's port can carry it (R190). -/
def State.portReady (s : State) (o : EngOp) : Bool :=
  let k := o.port % 16
  let p := (SMap.look s.ports k).getD {}
  p.mode == 2 && decide (s.partPorts (o.ctx / 8) / 2 ^ k % 2 = 1)

/-- The physical bytes that a block wrote to global memory, elements and scales, kept where an uncorrectable sector lies among them: its writes
are those that came since `nid` (R368). -/
def State.coverOf (s : State) (id nid : Nat) : List Nat :=
  if s.bad.isEmpty then []
  else ((s.pend.filter (fun e => decide (nid ≤ e.1) && e.2.eng && e.2.op == id)).flatMap (fun e => upFrom e.2.pa e.2.bytes.length)).filter
    (fun pa => (SMap.look s.bad (pa / 32)).isSome)

/-- The global lines that a block of a copy reads, at the form's RDIST (R165, R272). -/
def State.copyLines (s : State) (o : EngOp) (c : Desc) : State :=
  if c.stores then s
  else
    let b := o.kblk % c.nb
    let row := o.kblk / c.nb
    let is := (List.range 32).filter (fun i => decide (32 * b + i < c.e0))
    (firstOfLine (is.map (fun i => let a := (c.spos (32 * b + i) row).toNat; (o.th, a, o.phys a)))).foldl (fun (s : State) x =>
      s.l2Look x.1 o.core x.2.1 x.2.2 false o.rdist) s

/-- COPY_PASS (R186, R190): a granted pass moves one block of 32 elements; the completion word follows the last, and for CPYR the
peer's acknowledgement. -/
def State.copyPass (s : State) (id : Nat) (o : EngOp) (c : Desc) : State :=
  if o.walked || (!o.begun && !s.copyReady id o) then s
  else if o.kind = 8 ∧ !s.portReady o then s.engDone id { o with trap := 0x17 }
  else
    let s0 := if !o.begun && c.panel && !c.stores then s.blankPanels o c else s
    let r := (s0.copyLines o c).copyBlock o c
    let o1 := { r.2 with begun := true, kblk := o.kblk + 1, cover := o.cover ++ r.1.coverOf id s0.nid }
    if o1.kblk < c.blocks then { r.1 with eng := SMap.ins r.1.eng id o1 }
    else if o.kind = 8 then { r.1 with eng := SMap.ins r.1.eng id { o1 with walked := true } }
    else (r.1.copyFresh o1 c).engDone id o1

/-- CPYR_ACK (R190, R248): the peer has acknowledged every write. -/
def State.copyAck (s : State) (id : Nat) (o : EngOp) : State := if o.walked then s.engDone id o else s

/-- LINK_FAILURE (R190): a copy to the peer through a failed port stops with REMOTE. -/
def State.linkFail (s : State) (port : Nat) : State :=
  (s.eng.filter (fun e => e.2.kind == 8 && e.2.port % 16 == port)).foldl (fun s e => s.engDone e.1 { e.2 with trap := 0x17 }) s

end Sys2Proof.Machine
end

