-- ==== Sys2Proof/Machine/Sync.lean ====
section
/-!
DEFINITION. Barriers, nested grids at issue, work deques, mailboxes, sleep, event flags and boost leases (R196 to R209, R219 to R222).
-/
namespace Sys2Proof.Machine

/-! Barriers (R198 to R202, R297). -/

/-- The four barrier levels, by LEVEL code: 0 warp, 1 team, 2 cluster group, 3 grid (R198). -/
def barLevel (f : Yf) : Nat := bitsOf f.ymod 0 2

/-- The instance of a level's span that a thread belongs to (R297): its warp, its team, the rank-0 team of its cluster group, its
grid. -/
def State.barSpan (s : State) (level th : Nat) : Nat :=
  match level with
  | 0 => s.wkOf th
  | 1 => teamOfTh th
  | 2 => ((s.sibling th 0).map Prod.fst).getD (teamOfTh th)
  | _ => ((SMap.look s.teams (teamOfTh th)).map Team.grid).getD 0

/-- The key of a barrier: span instance, level, identifier. -/
def barKey (span level id : Nat) : Nat := (span * 4 + level) * 16 + id

/-- A barrier's key for a thread. -/
def State.barKeyOf (s : State) (level id th : Nat) : Nat := barKey (s.barSpan level th) level id

/-- A barrier's state; phases count from 0 (R200). -/
def State.barAt (s : State) (k : Nat) : Bar := (SMap.look s.bars k).getD { phase := 0, fixed := none, arrived := [], counts := [] }

/-- The threads of a team that have not exited; a team not placed yet has started none of its threads. -/
def State.teamLive (s : State) (tk : Nat) : Nat :=
  match SMap.look s.teams tk with
  | none => 0
  | some t =>
    match t.at_ with
    | .unplaced => ((SMap.look s.grids t.grid).map (fun g => 32 * g.warps)).getD 0
    | .retiring | .retired => 0
    | _ => (s.threads.filter (fun e => teamOfTh e.1 == tk && e.2.stat != .exited)).length

/-- The full membership of a barrier's span: its threads that have not exited (R198, R200). -/
def State.barMembers (s : State) (k : Nat) : Nat :=
  let level := k / 16 % 4
  let span := k / 64
  match level with
  | 0 => (s.threads.filter (fun e => e.2.wk == span && e.2.stat != .exited)).length
  | 1 => s.teamLive span
  | 2 =>
    match SMap.look s.teams span with
    | some t =>
      let c := max (((SMap.look s.grids t.grid).map Grid.cg).getD 1) 1
      ((s.teams.filter (fun e => e.2.grid == t.grid && e.2.idx / c == t.idx / c)).map (fun e => s.teamLive e.1)).sum
    | none => 0
  | _ => ((s.teams.filter (fun e => e.2.grid == span)).map (fun e => s.teamLive e.1)).sum

/-- The expected count of the incomplete phase (R200). -/
def State.barExpected (s : State) (k : Nat) : Nat :=
  match (s.barAt k).fixed with
  | some n => n.toNat
  | none => s.barMembers k

/-- The order of clusters in a slew release (R374): the rank of a cluster among those of its partition on its die, by key. -/
def State.slewRank (s : State) (p c : Nat) : Nat :=
  let base := s.partBase p
  let n := max (s.partLimit p - base) 1
  let ofs := (SMap.look s.slewOfs p).getD 0
  let key := fun d => (d + n - base - ofs % n) % n
  ((upFrom base n).filter (fun d => d / 256 == c / 256 && decide (key d < key c))).length

/-- A grid phase completes: issue resumes at most 32 clusters of a die per 100 ns, and the offset moves on (R298, R374). -/
def State.slewRelease (s : State) (p : Nat) : State :=
  let base := s.partBase p
  let n := s.partLimit p - base
  let s1 := (upFrom base n).foldl (fun (st : State) c =>
    let b := s.slewRank p c / 32
    if b = 0 then st
    else { st with clusters := SMap.ins st.clusters c { st.cluster c with slewed := some (s.now + 8400 * b) } }) s
  { s1 with slewOfs := SMap.write 0 s1.slewOfs p (((SMap.look s.slewOfs p).getD 0 + n / 3) % max n 1) }

/-- BARRIER_PHASE_COMPLETE (R200): arrivals equal the expected count. -/
def State.barSettle (s : State) (k : Nat) : State :=
  let b := s.barAt k
  if b.arrived.isEmpty || decide (b.arrived.length < s.barExpected k)
      || (b.fixed.isSome && decide (b.arrived.length ≠ s.barExpected k)) then s
  else
    let s1 := { s with bars := SMap.ins s.bars k { b with phase := b.phase + 1, fixed := none, arrived := [] } }
    if k / 16 % 4 = 3 then
      match SMap.look s.grids (k / 64) with
      | some g => s1.slewRelease (g.ctx / 8)
      | none => s1
    else s1

/-- Every barrier looked at, as after an exit (R198, R200). -/
def State.settleBars (s : State) : State := (SMap.keys s.bars).foldl (fun s k => s.barSettle k) s

/-- The scope of a barrier level (R201). -/
def barScope (level : Nat) : Scope := if level ≤ 1 then .core else if level = 2 then .clus else .pkg

/-- A phase a thread waits for has completed: 1 to 2^31 − 1 phases ahead (R200). -/
def phaseDone (completed n : W32) : Bool := decide (1 ≤ (completed - n).toNat ∧ (completed - n).toNat < 2 ^ 31)

/-- A wait at a barrier is over for a thread: its phase is complete and, for a grid, its cluster has been resumed (R200, R298). -/
def State.barOver (s : State) (level id th : Nat) (n : W32) : Bool :=
  phaseDone (s.barAt (s.barKeyOf level id th)).phase n
    && (decide (level ≠ 3) || ((s.cluster (s.coreOfTh th / 4)).slewed).isNone)

/-- How one thread fares at an arrival. -/
inductive Arrive where
  | arrived (s : State)
  | already              -- it has arrived in the incomplete phase
  | unordered            -- an access the release covers is not performed yet
  deriving DecidableEq, Repr

/-- One thread arrives (R200, R201): counted in the incomplete phase, whose expected count its first arrival fixes. -/
def State.arrive (s : State) (level id th : Nat) (pc count : W64) : Arrive :=
  let k := s.barKeyOf level id th
  let b := s.barAt k
  if b.arrived.contains th then .already
  else if !s.relReady s.nid (s.wkOf th) (s.coreOfTh th) (barScope level) then .unordered
  else
    let b1 : Bar := { b with
      fixed := if b.arrived.isEmpty then (if count = 0 then none else some count) else b.fixed
      arrived := b.arrived ++ [th], counts := SMap.ins b.counts th ((SMap.look b.counts th).getD 0 + 1) }
    .arrived (({ s with bars := SMap.ins s.bars k b1 }.updThread th (fun t => { t with barAt := SMap.ins t.barAt pc.toNat b.phase })).barSettle k)

/-- The phase a thread has arrived in at an instruction. -/
def State.arrivedAt (s : State) (th : Nat) (pc : W64) : Option W32 := (SMap.look s.threads th).bind (fun t => SMap.look t.barAt pc.toNat)

/-- A barrier form of the grid level in a grid neither co-resident nor travelling (R197, R202). -/
def State.barDenied (s : State) (tk level : Nat) : Bool :=
  decide (level = 3) && !((s.gridOfTeam tk).map (fun g => g.cores || g.travel)).getD false

/-- The arrivals of a group at BARARV or BAR: threads that can arrive do; the stall of the others. -/
def State.arriveAll (s : State) (f : Yf) (ths : List Nat) (pc : W64) (put : State → Nat → W32 → State) : State × Option Stall :=
  ths.foldl (fun (p : State × Option Stall) th =>
    if (p.1.arrivedAt th pc).isSome then p
    else
      match p.1.arrive (barLevel f) f.sel.toNat th pc (p.1.sget (p.1.wkOf th) f.a.toNat) with
      | .arrived s1 => (put s1 th ((s1.arrivedAt th pc).getD 0), p.2)
      | .already => (p.1, some .barrier)
      | .unordered => (p.1, p.2 <|> some .order)) (s, none)

/-- The arrival marks of an instruction are gone. -/
def State.leaveBar (s : State) (ths : List Nat) (pc : W64) : State :=
  ths.foldl (fun s th => s.updThread th (fun t => { t with barAt := SMap.del t.barAt pc.toNat })) s

/-- BARARV (R200, R201). -/
def execBararv (f : Yf) (s : State) : Host.Outcome State Fault Refusal :=
  issue (.bararv f) f.g s (fun x s =>
    if s.barDenied x.g.team (barLevel f) then .done s (x.act.map (fun th => trapAt x.g th 0x04))
    else
      let r := s.arriveAll f x.act x.g.pc (fun s th n => s.vset th f.d.toNat n)
      match r.2 with
      | some _ => .wait r.1 .order
      | none => .done (r.1.leaveBar x.act x.g.pc) [])

/-- BARWT (R200, R201). -/
def execBarwt (f : Yf) (s : State) : Host.Outcome State Fault Refusal :=
  issue (.barwt f) f.g s (fun x s =>
    if s.barDenied x.g.team (barLevel f) then .done s (x.act.map (fun th => trapAt x.g th 0x04))
    else if x.act.all (fun th => s.barOver (barLevel f) f.sel.toNat th (s.vget th f.a.toNat)) then .done (s.leaveBar x.act x.g.pc) []
    else .wait s .barrier)

/-- BAR (R200, R201): BARARV into an internal register, then BARWT on it. -/
def execBar (f : Yf) (s : State) : Host.Outcome State Fault Refusal :=
  issue (.bar f) f.g s (fun x s =>
    if s.barDenied x.g.team (barLevel f) then .done s (x.act.map (fun th => trapAt x.g th 0x04))
    else
      let r := s.arriveAll f x.act x.g.pc (fun s _ _ => s)
      match r.2 with
      | some w => .wait r.1 w
      | none =>
        if x.act.all (fun th => r.1.barOver (barLevel f) f.sel.toNat th ((r.1.arrivedAt th x.g.pc).getD 0)) then
          .done (r.1.leaveBar x.act x.g.pc) []
        else .wait r.1 .barrier)

/-- BARQ (R199, R200): the phases this thread has arrived in, or the expected count. -/
def execBarq (f : Yf) (s : State) : Host.Outcome State Fault Refusal :=
  perThread (.barq f) f.g s (fun _ th s =>
    let k := s.barKeyOf (barLevel f) f.sel.toNat th
    s.vset th f.d.toNat (if f.ymod.getLsbD 2 then BitVec.ofNat 32 (s.barExpected k)
                         else (SMap.look (s.barAt k).counts th).getD 0))

/-! Nested grids at issue (R203, R206). -/

/-- A park of a form that reissues whole at its own word: FORK (R147, R203). -/
def State.parkForm (s : State) (wk th : Nat) (pc va : W64) : State :=
  let e := mkEntry 1 0 6 (s.genOf wk) pc [(laneOfTh th, { addr := va, data := 0, stat := 0 })]
  (s.pushEntry wk e).1.park th pc

/-- FORK (R203): the leader's checks in order, then its token is pending and the launch waits for acceptance. -/
def execFork (f : En) (s : State) : Host.Outcome State Fault Refusal :=
  issue (.fork f) f.g s (fun x s =>
    let others := (x.act.filter (fun th => tidOf th != 0)).map (fun th => trapAt x.g th 0x04)
    match x.act.find? (fun th => tidOf th == 0), s.gridOfTeam x.g.team with
    | some th, some g =>
      let wk := s.wkOf th
      let a := s.sget wk f.p.toNat
      if g.depth = 10 then .done s (others ++ [trapAt x.g th 0x13])
      else
        let q : Ask := { wh := .global, addr := a, width := 64, align := 64, isRead := true, isWrite := false, locks := false }
        match s.check th q with
        | .trap c =>
          let s1 := if c = 0x0D then s.countWatch [(th, q, .trap c)] else s
          .done s1 (others ++ [trapAt x.g th c])
        | .park va => .done (s.parkForm wk th x.g.pc (BitVec.ofNat 64 va)) others
        | .ok _ =>
          if !s.relReady s.nid wk x.g.core .pkg then .stall .order
          else
            let n := s.newId
            let s1 := n.2.busyScalar wk f.t n.1
            .done ({ s1 with forks := SMap.ins s1.forks n.1 { wk := wk, tok := f.t, addr := a } }.updTeam x.g.team
              (fun t => { t with children := t.children + 1 })) others
    | _, _ => .done s others)

/-- Every non-exited thread of a team has issued FJOIN (R206). -/
def State.allJoined (s : State) (tk : Nat) : Bool :=
  match SMap.look s.teams tk with
  | none => false
  | some t => !t.fjoined.isEmpty && s.threads.all (fun e => teamOfTh e.1 != tk || e.2.stat == .exited || t.fjoined.contains e.1)

/-- The joined threads of a team go on past their FJOIN (R206). -/
def State.releaseFjoin (s : State) (tk : Nat) : State :=
  match SMap.look s.teams tk with
  | none => s
  | some t =>
    (t.fjoined.foldl (fun s th => s.updThread th (fun t => { t with rdvDone := true })) s).updTeam tk (fun t => { t with fjoined := [] })

/-- A team's posted receives leave its core with it (R212, R263). -/
def State.liftReceives (s : State) (tk : Nat) : State :=
  match SMap.look s.teams tk with
  | none => s
  | some t =>
    let mine := (s.coreOf t.core).posted.filter (fun r => r.team == tk)
    (s.updCore t.core (fun c => { c with posted := c.posted.filter (fun r => r.team != tk) })).updTeam tk
      (fun t => { t with posted := t.posted ++ mine })

/-- A team whose threads have all joined goes on, or is suspended while children are outstanding (R206). -/
def State.settleFjoin (s : State) (tk : Nat) : State :=
  match SMap.look s.teams tk with
  | none => s
  | some t =>
    if t.at_ = .placed && s.allJoined tk then
      if t.children = 0 then s.releaseFjoin tk
      else ((s.stopCycles tk).liftReceives tk).updTeam tk (fun t => { t with at_ := .suspended })
    else s

/-- Threads whose guard is false go on past an instruction at which the others of their group wait: a group of their own (R206). -/
def State.splitOn (s : State) (gid : Nat) (g : Group) (rest : List Nat) : State :=
  if rest.isEmpty then s
  else
    let n := s.newId
    let ng : Group := { g with threads := rest, stall := .none, latch := [], waited := true,
                               sleepers := g.sleepers.filter (fun p => rest.contains p.1), yielders := g.yielders.filter rest.contains }
    let s1 := rest.foldl (fun s th => s.updThread th (fun t => { t with stat := .grouped n.1 })) n.2
    let s2 := (s1.updGroup gid (fun g => { g with threads := g.threads.filter (fun th => !rest.contains th) }))
    ({ s2 with groups := SMap.ins s2.groups n.1 ng }).advance n.1

/-- FJOIN (R206): a rendezvous of the whole team. -/
def execFjoin (f : Yf) (s : State) : Host.Outcome State Fault Refusal :=
  issue (.fjoin f) f.g s (fun x s =>
    let fresh := x.act.filter (fun th => !((SMap.look s.threads th).map Thread.rdvDone).getD false)
    let s1 := s.updTeam x.g.team (fun t => { t with fjoined := t.fjoined ++ fresh.filter (fun th => !t.fjoined.contains th) })
    let s2 := s1.settleFjoin x.g.team
    let waits := x.act.any (fun th => !((SMap.look s2.threads th).map Thread.rdvDone).getD false)
    if waits then .wait (s2.splitOn x.gid x.g (x.ths.filter (fun th => !x.act.contains th))) .join
    else .done (x.ths.foldl (fun s th => s.updThread th (fun t => { t with rdvDone := false })) s2) [])

/-! Work deques (R208, R209). -/

/-- DQPUSH (R208, R209): the push never waits; what its release covers, the pop or the steal of the entry waits for (assumption 23). -/
def execDqpush (f : Sr) (s : State) : Host.Outcome State Fault Refusal :=
  issue (.dqpush f) f.g s (fun x s => .done (x.wks.foldl (fun s wk =>
    let v := s.sget wk f.a.toNat
    let d := (s.coreOf x.g.core).deque
    if v = 0 then s.sset wk f.d.toNat 2
    else if 256 ≤ d.length then s.sset wk f.d.toNat 0
    else (s.updCore x.g.core (fun c => { c with deque := c.deque ++ [v] })).sset wk f.d.toNat 1) s) [])

/-- The acquire of a pop or a steal that returned an entry (R209): the warp's later accesses wait until what the push released is
performed at .pkg scope, and the form itself for nothing (R208; assumption 23). -/
def State.acquireEntry (s : State) (wk core : Nat) (pc : W64) (ths : List Nat) (v : W64) : State :=
  if v = 0 ∨ !s.wideBusy s.nid wk then s
  else s.issueOp { baseOp .fence with wk := wk, core := core, pc := pc, gen := s.genOf wk, issued := s.now, inst := s.nid,
                                      ths := ths.filter (fun th => s.wkOf th == wk), wide := true }

/-- DQPOP (R208, R209): the bottom entry. -/
def execDqpop (f : Sr) (s : State) : Host.Outcome State Fault Refusal :=
  issue (.dqpop f) f.g s (fun x s => .done (x.wks.foldl (fun s wk =>
    let v := (s.coreOf x.g.core).deque.getLast?.getD 0
    ((s.updCore x.g.core (fun c => { c with deque := c.deque.dropLast })).sset wk f.d.toNat v).acquireEntry wk x.g.core x.g.pc x.act v) s) [])

/-- DQSTEAL (R208, R209, R233): the top entry of another core's deque. -/
def execDqsteal (f : Sr) (s : State) : Host.Outcome State Fault Refusal :=
  if s.curCtx.det then trapAll (.dqsteal f) f.g s 0x11
  else issue (.dqsteal f) f.g s (fun x s => .done (x.wks.foldl (fun s wk =>
    let c := (s.sget wk f.a.toNat).toNat % 4096
    let ok := s.partHolds (s.partOfTeam x.g.team) (c / 4) && (s.coreOf c).ctx == (s.gridOfTeam x.g.team).map Grid.ctx
    if ok then
      let v := (s.coreOf c).deque.head?.getD 0
      ((s.updCore c (fun c => { c with deque := c.deque.drop 1 })).sset wk f.d.toNat v).acquireEntry wk x.g.core x.g.pc x.act v
    else s.sset wk f.d.toNat 0) s) [])

/-! Mailboxes (R221, R261). -/

/-- A front end's mode (R317). -/
def State.feMode (s : State) (fe : Nat) : Nat := field (s.csrGet (0x1020 + 0x100 * fe)) 0 2

/-- A mailbox. -/
def State.mbox (s : State) (fe n : Nat) : Mbox := (SMap.look s.mb (8 * fe + n)).getD {}
/-- A mailbox changed. -/
def State.setMbox (s : State) (fe n : Nat) (b : Mbox) : State := { s with mb := SMap.ins s.mb (8 * fe + n) b }

/-- A form that each warp completes in turn, while the group waits for the last: `one` answers none while the warp waits (R75, R83). -/
def warpWait (i : Instr) (gd : Guard) (s : State) (w : Stall) (one : Group → State → Nat → Option State) :
    Host.Outcome State Fault Refusal :=
  issue i gd s (fun x s =>
    let served := fun (s : State) wk =>
      x.act.all (fun th => s.wkOf th != wk || ((SMap.look s.threads th).map Thread.rdvDone).getD false)
    let s1 := x.wks.foldl (fun s wk =>
      if served s wk then s
      else match one x.g s wk with
        | some s1 => (x.act.filter (fun th => s1.wkOf th == wk)).foldl (fun s th => s.updThread th (fun t => { t with rdvDone := true })) s1
        | none => s) s
    if x.wks.all (fun wk => served s1 wk) then
      .done (x.ths.foldl (fun s th => s.updThread th (fun t => { t with rdvDone := false })) s1) []
    else .wait s1 w)

/-- The context of the issuing group is in resident mode. -/
def State.curResident (s : State) : Bool :=
  match s.cur.bind (fun gid => SMap.look s.groups gid) with
  | some g => s.feMode (s.partOfTeam g.team) == 2
  | none => false

/-- MBRD (R197, R221). -/
def execMbrd (f : Yf) (s : State) : Host.Outcome State Fault Refusal :=
  if !s.curResident then trapAll (.mbrd f) f.g s 0x04
  else warpWait (.mbrd f) f.g s .mailbox (fun g s wk =>
    let fe := s.partOfTeam g.team
    let b := s.mbox fe f.sel.toNat
    if b.inFull then some ((s.setMbox fe f.sel.toNat { b with inFull := false }).sset wk f.d.toNat b.inW) else none)

/-- MBWR (R197, R221, R325): a release at .sys scope; it waits while the front end's ring holds 1,024 records. -/
def execMbwr (f : Yf) (s : State) : Host.Outcome State Fault Refusal :=
  if !s.curResident then trapAll (.mbwr f) f.g s 0x04
  else warpWait (.mbwr f) f.g s .mailbox (fun g s wk =>
    let fe := s.partOfTeam g.team
    let b := s.mbox fe f.sel.toNat
    let v := s.sget wk f.a.toNat
    if b.outFull || s.ringBlocked fe || !s.relReady s.nid wk g.core .sys then none
    else some ((s.setMbox fe f.sel.toNat { b with outW := v, outFull := true }).post fe 0x0010
      [(8, 1, f.sel.toNat), (11, 1, ((s.gridOfTeam g.team).map (fun g => g.ctx % 8)).getD 0), (12, 8, v.toNat)]))

/-! Sleep and event flags (R222). -/

/-- SLEEP (R222): the active threads park at the end of the clause. -/
def execSleep (f : Im) (s : State) : Host.Outcome State Fault Refusal :=
  issue (.sleep f) f.g s (fun x s =>
    let s1 := x.act.foldl (fun s th => s.updThread th (fun t => { t with sleepAt := s.teamCyc (teamOfTh th) })) s
    .done (s1.updGroup x.gid (fun g => { g with
      sleepers := g.sleepers.filter (fun p => !x.act.contains p.1) ++ x.act.map (fun th => (th, f.imm)) })) [])

/-- A sleeping thread goes on: awake where it stands, or in its parcel (R222, R287). -/
def State.wake (s : State) (th : Nat) : State :=
  match SMap.look s.threads th with
  | some t =>
    if t.stat = .asleep then (s.updThread th (fun t => { t with sleepEnd := none })).atBoundary th
    else s.updThread th (fun t => { t with wait := .none })
  | none => s

/-- A team's threads that are asleep, evicted ones among them. -/
def State.sleepersOf (s : State) (tk : Nat) : List Nat :=
  (s.threads.filter (fun e => teamOfTh e.1 == tk && (e.2.stat == .asleep ||
    (e.2.stat == .evicted && (match e.2.wait with | .sleep _ => true | _ => false))))).map Prod.fst

/-- A team's event flag is set: threads asleep at that moment are released and the flag is cleared once for all of them (R222). -/
def State.signal (s : State) (tk : Nat) : State :=
  match s.sleepersOf tk with
  | [] => s.updTeam tk (fun t => { t with flag := true })
  | ths => ths.foldl (fun s th => s.wake th) s

/-- EVSIG (R222). -/
def execEvsig (f : Im) (s : State) : Host.Outcome State Fault Refusal :=
  issue (.evsig f) f.g s (fun x s => .done (x.wks.foldl (fun s _ =>
    if f.imm = 0 then s.signal x.g.team
    else
      match SMap.look s.teams x.g.team, s.gridOfTeam x.g.team with
      | some t, some g =>
        let c := max g.cg 1
        (s.teams.filter (fun e => e.2.grid == t.grid && e.2.idx / c == t.idx / c)).foldl (fun s e => s.signal e.1) s
      | _, _ => s) s) [])

/-! Boost leases (R219, R220). -/

/-- BOOST (R219): the claim waits for the power-interval boundary that decides it. -/
def execBoost (f : Yf) (s : State) : Host.Outcome State Fault Refusal :=
  issue (.boost f) f.g s (fun x s =>
    let served := fun (s : State) wk =>
      x.act.all (fun th => s.wkOf th != wk || ((SMap.look s.threads th).map Thread.rdvDone).getD false)
    let s1 := x.wks.foldl (fun s wk =>
      let cl := s.cluster (x.g.core / 4)
      if served s wk || cl.claims.any (fun c => c.wk == wk) then s
      else
        let c : Claim := { wk := wk, ths := x.act.filter (fun th => s.wkOf th == wk), dst := f.d, level := f.sel.toNat,
                           len := min (s.sget wk f.a.toNat).toNat 1048576, ctx := ((s.gridOfTeam x.g.team).map Grid.ctx).getD 0,
                           at_ := s.now }
        { s with clusters := SMap.ins s.clusters (x.g.core / 4) { cl with claims := cl.claims ++ [c] } }) s
    if x.wks.all (fun wk => served s1 wk) then
      .done (x.ths.foldl (fun s th => s.updThread th (fun t => { t with rdvDone := false })) s1) []
    else .wait s1 .boost)

/-- BOOSTQ (R220, R233). -/
def execBoostq (f : Yf) (s : State) : Host.Outcome State Fault Refusal :=
  if s.curCtx.det then trapAll (.boostq f) f.g s 0x11
  else issue (.boostq f) f.g s (fun x s => .done (x.wks.foldl (fun s wk =>
    let cl := s.cluster (x.g.core / 4)
    let p := s.partOfTeam x.g.team
    s.sset wk f.d.toNat (match f.sel.toNat with
      | 0 => BitVec.ofNat 64 (cl.permits % 256 + 256 * (s.levelOf (x.g.core / 4) % 32))
      | 1 => s.csrGet (0x1010 + 0x100 * p)
      | 2 => s.csrGet (0x1011 + 0x100 * p)
      | _ => BitVec.ofNat 64 ((cl.lease.map Lease.left).getD 0))) s) [])

end Sys2Proof.Machine
end

