-- ==== Sys2Proof/Machine/Planish.lean ====
section
/-!
DEFINITION. Weighted wear and the ranking of units by it (R401 to R404, R407), and going on inside a clause (R229).
-/
namespace Sys2Proof.Machine

/-- LINE, milli-rs (R404). -/
def wearLine : Nat := 280000000000

/-- A unit's net stress, in 1/1,024 milli-rs (R403, R404). -/
def Mark.net (m : Mark) : Nat := max (m.bti - 1024 * m.credit) (max m.hci m.em)

/-- A unit's weighted wear (R404). -/
def Mark.ww (m : Mark) : Nat := min (65536 * m.net / (1024 * wearLine)) 0xFFFFFFFF

/-- The units of a physical cluster: its cores and its engine (R401). -/
def clusterUnits (k : Nat) : List Nat := (List.range 4).map (coreUnit k) ++ [engineUnit k]

/-- A physical cluster's stress, 1/1,024 milli-rs (R404). -/
def State.physStress (s : State) (k : Nat) : Nat := ((clusterUnits k).map (fun u => (s.mark u).net)).foldl max 0

/-- A physical cluster's weighted wear (R404). -/
def State.physWw (s : State) (k : Nat) : Nat := ((clusterUnits k).map (fun u => (s.mark u).ww)).foldl max 0

/-- A core's place in the ranking: its cluster's wear, its own, its index (R407). -/
def State.coreRank (s : State) (c : Nat) : Nat × Nat × Nat :=
  let k := s.physOf (c / 4)
  (s.physWw k, (s.mark (coreUnit k (c % 4))).ww, c)

/-- One place ranks before another. -/
def rankLt (a b : Nat × Nat × Nat) : Bool :=
  decide (a.1 < b.1) || (a.1 == b.1 && (decide (a.2.1 < b.2.1) || (a.2.1 == b.2.1 && decide (a.2.2 < b.2.2))))

/-- The core that planishing picks (R407). -/
def State.planish (s : State) (cores : List Nat) : Option Nat :=
  cores.foldl (fun best c =>
    match best with
    | none => some c
    | some b => if rankLt (s.coreRank c) (s.coreRank b) then some c else some b) none

/-- The logical cores of a partition, dark clusters left out (R409). -/
def State.partCores (s : State) (p : Nat) : List Nat :=
  (upFrom (4 * s.partBase p) (4 * (s.partLimit p - s.partBase p))).filter (fun c => !(s.cluster (c / 4)).dark)

/-- A core holds a team. -/
def State.holdsTeam (s : State) (c : Nat) : Bool := s.teams.any (fun e => e.2.core == c && e.2.at_ == .placed)
  && (s.coreOf c).seg.isNone

/-! Going on inside a clause (R33, R229). -/

/-- The clause that holds an address: its header's address and word, and the instruction word's index; none at a header itself. -/
def State.clauseOf (s : State) (code : Nat) (pc : W64) : Option (W64 × W64 × Nat) :=
  (upFrom 1 16).findSome? (fun k =>
    let h := pc - BitVec.ofNat 64 (8 * k)
    match s.codeWord code h with
    | some w =>
      if marked w && decide (k ≤ (bits w 52 4).toNat + 1)
          && (upFrom 1 (k - 1)).all (fun j => ((s.codeWord code (h + BitVec.ofNat 64 (8 * j))).map (fun x => !marked x)).getD false)
      then some (h, w, k - 1) else none
    | none => none)

/-- An address holds a word with MARK: what its reserved bits say is for the decode of the clause (R33, R49). -/
def State.isHeader (s : State) (code : Nat) (pc : W64) : Bool := ((s.codeWord code pc).map marked).getD false

/-- Threads of one team on one core go on at an address (R229): at a clause header through the bucket table, inside a clause as a group
of their own without the header's waits; an address that is neither raises CLAUSE. -/
def State.resumeAt (s : State) (core tk : Nat) (ths : List Nat) (pc : W64) : State :=
  let s0 := ths.foldl (fun (s : State) th => s.updThread th (fun t => { t with pc := pc, stat := .ready })) s
  match ths, s.gridOfTeam tk with
  | th0 :: _, some g =>
    match s.isHeader g.code pc, s.clauseOf g.code pc with
    | false, some (h, w, k) =>
      let seg := ((SMap.look s.threads th0).map Thread.seg).getD 0
      let hnd := ((SMap.look s.threads th0).map Thread.handler).getD false
      (match s.decodeClause g seg hnd h with
       | .error (e, j) => s0.deliver (ths.map (fun th =>
           { th := th, code := e.code, info := h + BitVec.ofNat 64 (8 * j), rpc := h, entry := none, rec_ := some (s.decodeRec th h j) }))
       | .ok _ =>
         let n := s0.newId
         let s1 : State := ths.foldl (fun s th => s.updThread th (fun t =>
           { t with stat := .grouped n.1, inTable := false, pc := h, came := none, slp := none, yld := false })) n.2
         let due := fun (f : Thread → Bool) => ths.filter (fun th => ((SMap.look s.threads th).map f).getD false)
         let ng : Group :=
           { core := core, team := tk, threads := ths, head := h, hword := w, idx := k, waited := true, stall := .none, latch := []
             sleepers := ths.filterMap (fun th => ((SMap.look s.threads th).bind Thread.slp).map (fun n => (th, n))), yielders := due Thread.yld, moved := [], parked := false, issued := false, turn := none }
         { s1 with groups := SMap.ins s1.groups n.1 ng })
    | true, _ => ths.foldl (fun s th => s.resumeHeader th) s0
    | false, none => s0.deliver (ths.map (fun th =>
        { th := th, code := DecodeFault.clause.code, info := pc, rpc := pc, entry := none, rec_ := some (s.decodeRec th pc 0) }))
  | _, _ => s0

end Sys2Proof.Machine
end

