-- ==== Sys2Proof/Machine/Transl.lean ====
section
/-!
DEFINITION. Translation: physical addresses, page-table walks and extents (R275, R338, R354 to R357, R428).
-/
namespace Sys2Proof.Machine

/-- A physical address that a partition may reach (R338). -/
def State.physOk (s : State) (p pa : Nat) : Bool :=
  decide (pa < 2 ^ 40 ∧ pa % 2 ^ 34 < 0x300000000) && (s.partChan p).getLsbD (pa / 2 ^ 34)

/-- What a walk finds (R354, R357). -/
inductive Walk where
  | leaf (e : Extent)
  | hold
  | unmapped
  | bad          -- an uncorrectable table entry (R368)
  deriving DecidableEq, Repr

/-- The key of a table entry of a context that the graph engines hold. -/
def tabKey (ck a : Nat) : Nat := ck * 2 ^ 48 + a

/-- A table entry as a walk finds it: above level 4 the one that the graph engines hold, if they hold it (R358); else memory's. -/
def State.tabEntry (s : State) (ck a : Nat) (last : Bool) : Nat :=
  match last, SMap.look s.tabs (tabKey ck a) with
  | false, some e => e
  | _, _ => s.memWord a 8

/-- The walk below a table (R354): `levels` holds the lowest index bit of each level left, and whether a leaf may stand there. -/
def State.walkFrom (s : State) (ck va : Nat) : List (Nat × Bool) → Nat → Walk
  | [], _ => .unmapped
  | (lo, leafOk) :: ls, table =>
    let p := ck / 8
    let a := table + 8 * (va / 2 ^ lo % 512)
    let held := !ls.isEmpty && (SMap.look s.tabs (tabKey ck a)).isSome
    if !s.physOk p a then .unmapped
    else if !held && (SMap.look s.bad (a / 32)).isSome then .bad
    else
      let e := s.tabEntry ck a ls.isEmpty
      let reserved := decide (e / 2 ^ 48 ≠ 0 ∨ e / 32 % 128 ≠ 0)
      let pa := e / 4096 % 2 ^ 36 * 4096
      let leaf := ls.isEmpty || decide (e / 2 % 2 = 1)
      if reserved then .unmapped
      else if e % 2 = 0 then (if e / 16 % 2 = 1 then .hold else .unmapped)
      else if leaf then
        (if !leafOk || decide (pa % 2 ^ lo ≠ 0) || !s.physOk p pa then .unmapped
         else .leaf { va := va / 2 ^ lo * 2 ^ lo, len := 2 ^ lo, pa := pa, r := decide (e / 4 % 2 = 1), w := decide (e / 8 % 2 = 1),
                      stale := false })
      else s.walkFrom ck va ls pa

/-- The levels of the tables: the lowest index bit of each, and whether a leaf may stand there (R354). -/
def walkLevels : List (Nat × Bool) := [(39, false), (30, true), (21, true), (12, true)]

/-- Where a context's tables begin (R318, R354). -/
def State.rootOf (s : State) (ck : Nat) : Nat := ((SMap.look s.ctxs ck).map (fun c => c.root.toNat / 4096 * 4096)).getD 0

/-- A walk of a context's tables (R354). -/
def State.walk (s : State) (ck va : Nat) : Walk := s.walkFrom ck va walkLevels (s.rootOf ck)

/-- What a walk leaves behind: its reads meet the L2 (R351), and the graph engines hold the valid entries above level 4 (R358; assumption 89). -/
def State.noteWalkFrom (s : State) (ck va : Nat) : List (Nat × Bool) → Nat → State
  | [], _ => s
  | (lo, _) :: ls, table =>
    let a := table + 8 * (va / 2 ^ lo % 512)
    let e := s.tabEntry ck a ls.isEmpty
    if !s.physOk (ck / 8) a || e % 2 = 0 then s
    else
      let s1 := s.l2Pass a false
      if ls.isEmpty then s1
      else
        let s2 := { s1 with tabs := SMap.ins s1.tabs (tabKey ck a) e }
        if e / 2 % 2 = 1 then s2 else s2.noteWalkFrom ck va ls (e / 4096 % 2 ^ 36 * 4096)

/-- A walk of the graph engine is noted. -/
def State.noteWalk (s : State) (ck va : Nat) : State := s.noteWalkFrom ck va walkLevels (s.rootOf ck)

/-- Whether an operation in flight uses an extent (R275): its accesses lie in it. -/
def State.extentBusy (s : State) (core : Nat) (e : Extent) : Bool :=
  let hits := fun (pa : Nat) => decide (e.pa ≤ pa ∧ pa < e.pa + e.len)
  s.ops.any (fun o => o.2.core == core && o.2.lanes.any (fun l => l.space == .glob && (hits l.pa || hits l.pa2)))
    || s.pend.any (fun p => p.2.core == core && hits p.2.pa)
    || s.eng.any (fun o => o.2.core == core && o.2.exts.any (fun x => x.va == e.va))

/-- Ticks of the last access through an extent of a core (R275). -/
def State.lastUse (s : State) (core : Nat) (e : Extent) : Nat := (SMap.look s.extUse (core * 2 ^ 48 + e.va)).getD 0

/-- The least recently used of a core's extents that no access in flight uses (R275). -/
def State.idleExtents (s : State) (core : Nat) : List Extent :=
  let free := (s.coreOf core).exts.filter (fun x => !s.extentBusy core x)
  free.filter (fun x => free.all (fun y => decide (s.lastUse core x ≤ s.lastUse core y)))

/-- An extent installed on a core (R275, R356): a full table gives up the least recently used extent that no access in flight uses; among
those last used at one time, the `victim`-th. -/
def State.install (s0 : State) (core : Nat) (e : Extent) (victim : Nat) : State :=
  let s := { s0 with extUse := SMap.ins s0.extUse (core * 2 ^ 48 + e.va) s0.now }
  let es := (s.coreOf core).exts
  if es.any (fun x => !x.stale && decide (x.va ≤ e.va ∧ e.va + e.len ≤ x.va + x.len)) then s
  else if es.length < 64 then s.updCore core (fun c => { c with exts := c.exts ++ [e] })
  else
    let free := s.idleExtents core
    match free[victim % max free.length 1]? with
    | some v => s.updCore core (fun c => { c with exts := c.exts.erase v ++ [e] })
    | none => s

/-- Physical addresses where the device keeps parameter slots: scheduler memory, outside the channels (R428). -/
def slotPhys (ck slot : Nat) : Nat := 2 ^ 48 + (ck * 2 ^ 28 + slot) * 4096

/-- The virtual address of a parameter slot (R428). -/
def slotVa (slot : Nat) : Nat := 0xFD0000000000 + 4096 * slot

/-- A context's free parameter slot of least number (R428). -/
def State.freeSlot (s : State) (ck : Nat) : Nat :=
  SMap.fresh ((s.slots.filter (fun e => e.1 / 2 ^ 28 == ck)).map (fun e => (e.1 % 2 ^ 28, ())))

/-- A grid's slot as a read-only extent on a core, one of its 64 (R275, R428). -/
def State.installSlot (s : State) (core ck : Nat) (va : W64) (victim : Nat) : State :=
  if inParamWindow va.toNat then
    let slot := (va.toNat - 0xFD0000000000) / 4096
    (s.updCore core (fun c => { c with exts := c.exts.filter (fun x => x.va != slotVa slot) })).install core
      { va := slotVa slot, len := 4096, pa := slotPhys ck slot, r := true, w := false, stale := false } victim
  else s

/-- The part of a page around an address that no declared range covers (R273, R357). -/
def clearPart (rs : List ORange) (va : Nat) (e : Extent) : Extent :=
  let rs := rs.filter (fun r => decide (r.acc ≠ 0 ∧ r.len ≠ 0))
  let lo := (rs.map (fun r => if r.va + r.len ≤ va then r.va + r.len else 0)).foldl max e.va
  let hi := (rs.map (fun r => if va < r.va then r.va else e.va + e.len)).foldl min (e.va + e.len)
  { e with va := lo, len := hi - lo, pa := e.pa + (lo - e.va) }

/-- The extent that a miss installs (R273 to R275, R356, R357): the address's page, as far as one declared range covers it, with that range's
access; or the part of it that no range covers, with the page's own. -/
def missExtent (rs : List ORange) (va : Nat) (x : Extent) : Extent :=
  match rs.find? (fun r => decide (r.acc ≠ 0 ∧ r.va ≤ va ∧ va < r.va + r.len)) with
  | some r =>
    let lo := max r.va x.va
    let hi := min (r.va + r.len) (x.va + x.len)
    { x with va := lo, len := hi - lo, pa := x.phys lo, r := x.r && decide (r.acc % 2 = 1), w := x.w && decide (r.acc / 2 = 1) }
  | none => clearPart rs va x

/-- What the device finds at an address of a context (R354, R428): in the parameter window the slot there, which no table covers. -/
def State.lookup (s : State) (ck va : Nat) : Walk :=
  if inParamWindow va then
    let slot := (va - 0xFD0000000000) / 4096
    if (SMap.look s.slots (ck * 2 ^ 28 + slot)).isSome then
      .leaf { va := slotVa slot, len := 4096, pa := slotPhys ck slot, r := true, w := false, stale := false }
    else .unmapped
  else s.walk ck va

/-- A page of a virtual range stands on HOLD: whoever reads it waits (R357). -/
def State.virtHeld (s : State) (ck a n : Nat) : Bool :=
  n != 0 && (upFrom (a / 4096) ((a % 4096 + n + 4095) / 4096)).any (fun k => s.lookup ck (4096 * k) == .hold)

/-- Bytes of a context's virtual memory, page by page, as the graph engine reads them; none where a page is not readable or a sector
is uncorrectable. -/
def State.readVirt (s : State) (ck : Nat) : Nat → Nat → Option (List Byte)
  | _, 0 => some []
  | a, n + 1 =>
    match s.lookup ck a with
    | .leaf e =>
      let pa := e.phys a
      if e.r && !s.badBytes pa 1 then (s.readVirt ck (a + 1) n).map (fun bs => s.byte pa :: bs) else none
    | _ => none

/-- Bytes written to a context's virtual memory by the device; false where a page is not writable. -/
def State.writeVirt (s : State) (ck : Nat) : Nat → List Byte → State × Bool
  | _, [] => (s, true)
  | a, b :: bs =>
    match s.lookup ck a with
    | .leaf e => if e.w then ((s.setByte (e.phys a) b).l2Pass (e.phys a) true).writeVirt ck (a + 1) bs else (s, false)
    | _ => (s, false)

/-- Every page of a virtual range is mapped for a read, or for a write (R324, R354, R363). -/
def State.rangeMapped (s : State) (ck a n : Nat) (write : Bool) : Bool :=
  n == 0 || (upFrom (a / 4096) ((a % 4096 + n + 4095) / 4096)).all (fun k =>
    match s.lookup ck (4096 * k) with
    | .leaf e => if write then e.w else e.r
    | _ => false)

/-- The part of a page that a declared range covers, as an extent (R273, R356). -/
def State.pageExtent (s : State) (ck : Nat) (r : ORange) (k : Nat) : Option Extent :=
  match s.walk ck (4096 * k) with
  | .leaf e =>
    let lo := max r.va (4096 * k)
    let hi := min (r.va + r.len) (4096 * k + 4096)
    some { va := lo, len := hi - lo, pa := e.phys lo, r := e.r && decide (r.acc % 2 = 1), w := e.w && decide (r.acc / 2 = 1), stale := false }
  | _ => none

/-- Pages consecutive in both addresses and of one access become one extent (R356). -/
def mergeExtents : List Extent → List Extent
  | [] => []
  | e :: es =>
    match mergeExtents es with
    | f :: fs => if e.va + e.len = f.va ∧ e.pa + e.len = f.pa ∧ e.r = f.r ∧ e.w = f.w then { e with len := e.len + f.len } :: fs
                 else e :: f :: fs
    | [] => [e]

/-- The extents of a declared range (R356). -/
def State.rangeExtents (s : State) (ck : Nat) (r : ORange) : List Extent :=
  if r.acc = 0 ∨ r.len = 0 then []
  else mergeExtents ((upFrom (r.va / 4096) ((r.va % 4096 + r.len + 4095) / 4096)).filterMap (s.pageExtent ck r))

/-- Extents in ascending virtual address. -/
def sortExtents : List Extent → List Extent
  | [] => []
  | e :: es => insertExtent e (sortExtents es)
where
  /-- One extent put in its place. -/
  insertExtent (e : Extent) : List Extent → List Extent
    | [] => [e]
    | f :: fs => if e.va ≤ f.va then e :: f :: fs else f :: insertExtent e fs

/-- The extents of declared ranges as a walk finds them, ascending (R356). -/
def State.rangesOf (s : State) (ck : Nat) (rs : List ORange) : List Extent := sortExtents (rs.flatMap (s.rangeExtents ck))

/-- The walks of declared ranges are noted. -/
def State.noteRanges (s : State) (ck : Nat) (rs : List ORange) : State :=
  (rs.filter (fun r => decide (r.acc ≠ 0 ∧ r.len ≠ 0))).foldl (fun (s : State) r =>
    (upFrom (r.va / 4096) ((r.va % 4096 + r.len + 4095) / 4096)).foldl (fun (s : State) k => s.noteWalk ck (4096 * k)) s) s

/-- A core has room for a grid's parameter slot among its 64 extents (R307, R428). -/
def State.slotRoom (s : State) (g : Grid) (core : Nat) : Bool :=
  let c := s.coreOf core
  c.ctx != some g.ctx || decide (c.exts.length < 64) || !(s.idleExtents core).isEmpty
    || c.exts.any (fun e => inParamWindow g.param.toNat && e.va == slotVa ((g.param.toNat - 0xFD0000000000) / 4096))

end Sys2Proof.Machine
end

