-- ==== Sys2Proof/Machine/Traps.lean ====
section
/-!
DEFINITION. TRAP, RTR, RQRD and RQWR, parked accesses performed again, and replay entries (R147, R154, R224 to R230, R293, R357).
-/
namespace Sys2Proof.Machine

/-! TRAP (R224). -/

/-- TRAP (R224, R225): SOFTWARE with SEL as its code; the thread resumes after it. -/
def execTrap (f : Yf) (s : State) : Host.Outcome State Fault Refusal :=
  issue (.trap f) f.g s (fun x s => .done s (x.act.map (fun th =>
    { th := th, code := 0x0F, info := f.sel.setWidth 64, rpc := x.g.after, entry := none })))

/-! Performing an access from its entry (R147, R154, R229). -/

/-- What a memory instruction asks and issues (R139): none for a form that is not performed from an entry. -/
def formOf : Instr → Option MForm
  | .ld f => some (loadDesc f .global false)
  | .sld f => some (loadDesc f .global true)
  | .lds f => some (loadDesc f .local_ false)
  | .ldx f => some (loadDesc f .group false)
  | .st f => some (storeDesc f .global false)
  | .sst f => some (storeDesc f .global true)
  | .sts f => some (storeDesc f .local_ false)
  | .stx f => some (storeDesc f .group false)
  | .atom f => some (atomDesc f .global false)
  | .acas f => some (atomDesc f .global true)
  | .atoms f => some (atomDesc f .local_ false)
  | .acass f => some (atomDesc f .local_ true)
  | .xopen f => some (cellDesc f true)
  | .xclose f => some (cellDesc f false)
  | .stcmp f => some { storeDesc f .global false with align := 1 }
  | .ldexp f => some { loadDesc f .global false with align := 1 }
  | _ => none

/-- XOPEN or XCLOSE. -/
def isCells : Instr → Bool
  | .xopen _ | .xclose _ => true
  | _ => false

/-- The thread that stands in a lane of a warp. -/
def State.threadAt (s : State) (wk lane : Nat) : Option Nat :=
  (s.threads.find? (fun e => e.2.wk == wk && e.2.lane == lane && e.2.stat != .parcel && e.2.stat != .evicted && e.2.stat != .exited)).map
    Prod.fst

/-- The instruction of an entry, in the code of the team whose threads it names (R226, R293). -/
def State.entryInstr (s : State) (wk : Nat) (e : REntry) : Option Instr :=
  let own := ((List.range 32).filter (laneBit e.mask)).findSome? (s.threadAt wk)
  match own.map teamOfTh <|> (SMap.look s.warps wk).map Warp.team with
  | some tk => (s.gridOfTeam tk).bind (fun g => (s.codeWord g.code e.pc).bind (fun x => (decodeWord x).toOption))
  | none => none

/-- What a lane record asks again. -/
def RLane.ask (m : MForm) (r : RLane) : Ask :=
  if m.op.kind = .cas then m.ask r.addr (BitVec.ofNat 128 (r.data.toNat % 2 ^ 64)) (BitVec.ofNat 64 (r.data.toNat / 2 ^ 64))
  else m.ask r.addr r.data 0

/-- An entry of a warp's queue goes; indices above it fall by one, in held traps and in those not delivered yet. -/
def State.dropEntry (s : State) (wk k : Nat) (ts : List TrapReq) : State × List TrapReq :=
  let shift := fun (r : TrapReq) => { r with entry := r.entry.map (fun i => if k < i then i - 1 else i) }
  (s.updWarp wk (fun w => { w with rq := w.rq.eraseIdx k, held := w.held.map shift }), ts.map shift)

/-- An entry replaced. -/
def State.setEntry (s : State) (wk k : Nat) (e : REntry) : State := s.updWarp wk (fun w => { w with rq := w.rq.set k e })

/-- A lane record of an entry; one that it does not list holds zeros. -/
def REntry.rec_ (e : REntry) (l : Nat) : RLane := (SMap.look e.lanes l).getD { addr := 0, data := 0, stat := 0 }

/-- The check of an access performed again: a lane register that an engine has come to own raises ENGINE_REG (R81). -/
def State.ownCheck (s : State) (i : Instr) (th : Nat) (c : Check) : Check :=
  match c with
  | .ok _ => if (laneRegs i.shape.writes).any (fun r => (SMap.look s.vown (vkey th r)).isSome) then .trap 0x0A else c
  | _ => c

/-- What the lanes of an entry ask again, each with its check (R146, R229). -/
def State.redoChecks (s : State) (i : Instr) (m : MForm) (e : REntry) (ths : List Nat) : List (Nat × Ask × Check) :=
  ths.map (fun th => let q := (e.rec_ (laneOfTh th)).ask m; (th, q, s.ownCheck i th (s.check th q)))

/-- The elements of the remainder of an STCMP or LDEXP that a lane of its MASK still asks, each at its own index (R154): the thread, the
element's place, what it asks, its check. -/
def State.restChecks (s : State) (wk : Nat) (i : Instr) (m : MForm) (e : REntry) : List (Nat × Nat × Ask × Check) :=
  (((List.range 32).filter (laneBit e.elems)).zip (List.range 32)).filterMap (fun p =>
    if laneBit e.mask p.1 then
      (s.threadAt wk p.1).map (fun th =>
        let q : Ask := { ((e.rec_ p.1).ask m) with addr := e.aux + BitVec.ofNat 64 ((e.idx + p.2) * m.width) }
        (th, p.2, q, s.ownCheck i th (s.check th q)))
    else none)

/-- An access may not be performed again yet: its counter has no room (R77), a register it writes is pending (R79), its warp's store queue
or a service warp's queue is full (R150, R301). -/
def State.redoHeld (s : State) (wk : Nat) (e : REntry) (ths : List Nat) : Bool :=
  match s.entryInstr wk e with
  | none => false
  | some i =>
    match formOf i with
    | none => false
    | some m =>
      let writes := if e.kind = 5 then i.shape.writes.filter (fun o => (opndRegs o).2.isEmpty) else i.shape.writes
      s.counterFull [wk] e.w || s.interlock ⟨[], writes⟩ ths [wk] != .none || (m.queued && decide (32 ≤ s.queueLen wk))
        || (m.op.kind.served && s.requestFull (s.redoChecks i m e ths))

/-- Threads with the access of one entry performed again for them: the state, those that stopped again, their traps (R229). A form that
acts once per warp is performed once, and what stops it stops every thread of `also`. `row8` says whether stored data meets its bound check
now; a store that a halt took from its queue has met it at its issue (R278, R279). -/
def State.redo (s : State) (wk : Nat) (e : REntry) (row8 : Bool) (ths also : List Nat) (rpc : Nat → W64) : State × List Nat × List TrapReq :=
  match s.entryInstr wk e with
  | none => (s, [], [])
  | some i =>
    match formOf i with
    | none => (s, [], [])
    | some m =>
      let inst := s.nid
      let r : State × List TrapReq :=
        if isCells i then
          (match ths with
           | th :: _ => let q := e.rec_ (laneOfTh th)
                        (s.newId).2.issueCells m wk inst e.pc (rpc th) q.addr (q.data.toNat % 2 ^ 64) also
           | [] => (s, []))
        else
          let rf := refineBound (row8 && m.chk.isSome) (m.chk.getD .z32) s wk (s.redoChecks i m e ths)
          (rf.1.newId).2.issueChecked m wk inst e.pc 0 also rf.2
      let traps := r.2.map (fun t => { t with rpc := rpc t.th })
      -- what stops again of a store that has met its bound check meets it no more
      let n0 := (((SMap.look s.warps wk).map Warp.rq).getD []).length
      let s0 := if row8 then r.1 else r.1.updWarp wk (fun w => { w with rq := w.rq.take n0 ++ (w.rq.drop n0).map (fun e => { e with chkd := true }) })
      let r := (s0, r.2)
      let parked := also.filter (fun th => ((SMap.look r.1.threads th).map Thread.stat) == some .extentMiss)
      let s1 := parked.foldl (fun s th => s.updThread th (fun t => { t with parkPc := rpc th })) r.1
      (s1, parked ++ traps.map TrapReq.th, traps)

/-- The remainder of an STCMP or LDEXP performed again from its entry's base, each element at its own index (R154, R229): what stops
again makes a new entry. -/
def State.redoRest (s : State) (wk : Nat) (e : REntry) (rpc : Nat → W64) : State × List Nat × List TrapReq :=
  match s.entryInstr wk e with
  | none => (s, [], [])
  | some i =>
    match formOf i with
    | none => (s, [], [])
    | some m =>
      let mine := s.restChecks wk i m e
      let rf := refineInOrder m.chk.isSome (m.chk.getD .z32) s wk (mine.map (fun p => (p.1, p.2.2)))
      let sp := untilFail rf.2
      let s1 := ((rf.1.newId).2.issueOp (m.opOf s wk s.nid e.pc sp.1)).countWatch (sp.2.take 1)
      match sp.2 with
      | [] => (s1, [], [])
      | (_, q, c) :: _ =>
        let at_ := ((mine.drop sp.1.length).head?.map (fun p => p.2.1)).getD 0
        let rest := sp.2.map Prod.fst
        let code := match c with | .trap k => k | _ => 0
        let keep := ((List.range 32).filter (laneBit e.elems)).drop at_
        let e1 : REntry := { e with kind := 5, trap := code, gen := s.genOf wk, idx := e.idx + at_, rtr := 0, mask := maskOf (rest.map laneOfTh),
                                    elems := maskOf keep, lanes := SMap.mapV (fun _ l => { l with stat := BitVec.ofNat 64 code }) e.lanes }
        let pe := s1.pushEntry wk e1
        if code = 0 then (rest.foldl (fun s th => s.parkTo th e.pc (rpc th)) pe.1, rest, [])
        else (pe.1, rest, rest.map (fun th => { th := th, code := code, info := q.addr, rpc := rpc th, entry := some pe.2 }))

/-! RTR (R229). -/

/-- A thread's resume PC. -/
def State.rpcOf (s : State) (th : Nat) : W64 := ((SMap.look s.threads th).map Thread.rpc).getD 0

/-- A re-injection under way: the state, the threads still running, the traps raised, and the threads that wait at their RTR because an
access may not be performed yet. -/
structure Inject where
  s     : State
  run   : List Nat
  traps : List TrapReq
  stuck : List Nat

/-- Whether a lane has been re-injected: done in its record (R226). -/
def REntry.doneLane (e : REntry) (l : Nat) : Bool := ((SMap.look e.lanes l).map (fun r => r.stat.getLsbD 8)).getD true

/-- Lanes marked re-injected. -/
def REntry.markDone (e : REntry) (ls : List Nat) : REntry :=
  { e with lanes := SMap.mapV (fun l r => if ls.contains l then { r with stat := r.stat ||| 0x100 } else r) e.lanes }

/-- Every lane the entry names has re-injected (R229). -/
def REntry.spent (e : REntry) : Bool := (List.range 32).all (fun l => !laneBit e.mask l || e.doneLane l)

/-- One entry of the queue for the running threads it names; answers the index that comes next (R229). -/
def injectOne (wk k : Nat) (x : Inject) : Inject × Nat :=
  match ((SMap.look x.s.warps wk).bind (fun w => w.rq[k]?)) with
  | none => (x, k + 1)
  | some e =>
    let mine := x.run.filter (fun th => laneBit e.mask (laneOfTh th) && !e.doneLane (laneOfTh th))
    if e.halt || (mine.isEmpty && !e.spent) then (x, k + 1)
    else if e.kind = 5 && !e.drop && !mine.isEmpty then
      -- the lanes wait at their RTR until the last of the mask has issued it
      let e1 := { e with rtr := e.rtr ||| maskOf (mine.map laneOfTh) }
      ({ x with s := x.s.setEntry wk k e1, run := x.run.filter (fun th => !mine.contains th) }, k + 1)
    else if !e.drop && x.s.redoHeld wk e mine then
      ({ x with run := x.run.filter (fun th => !mine.contains th), stuck := x.stuck ++ mine }, k + 1)
    else
      let e1 := e.markDone (mine.map laneOfTh)
      let r := if e.drop || mine.isEmpty then (x.s, [], []) else x.s.redo wk e (!e.chkd) mine mine x.s.rpcOf
      let s1 := r.1.setEntry wk k e1
      let run := x.run.filter (fun th => !r.2.1.contains th)
      if e1.spent then
        let d := s1.dropEntry wk k (x.traps ++ r.2.2)
        ({ x with s := d.1, run := run, traps := d.2 }, k)
      else ({ x with s := s1, run := run, traps := x.traps ++ r.2.2 }, k + 1)

/-- The entries from index `k` in order, `n` of them at most. -/
def injectFrom : Nat → Nat → Nat → Inject → Inject
  | 0, _, _, x => x
  | n + 1, wk, k, x => let r := injectOne wk k x; injectFrom n wk r.2 r.1

/-- Threads that leave handler state go on at their RPC, those at one PC of one warp together (R229). -/
def State.goOnAt (s : State) (core tk : Nat) (ths : List Nat) : State :=
  (ths.map s.rpcOf).eraseDups.foldl (fun s1 pc => s1.resumeAt core tk (ths.filter (fun th => s.rpcOf th == pc)) pc) s

/-- Threads in or out of handler state. -/
def State.setHandler (s : State) (ths : List Nat) (h : Bool) : State :=
  ths.foldl (fun (s : State) th => s.updThread th (fun t => { t with handler := h })) s

/-- The k-th entry of a warp, of KIND 5, once every lane of its MASK has issued RTR: the remainder is performed, and the lanes are
released together, or trap again (R229). -/
def State.joinEntry (s : State) (wk k : Nat) : State :=
  match (SMap.look s.warps wk).bind (fun w => w.rq[k]?) with
  | none => s
  | some e =>
    if e.kind = 5 && !e.halt && e.rtr != 0 && decide (e.mask &&& ~~~e.rtr = 0) && !s.redoHeld wk e ((List.range 32).filterMap (fun l => if laneBit e.mask l then s.threadAt wk l else none)) then
      let ths := (List.range 32).filterMap (fun l => if laneBit e.rtr l then s.threadAt wk l else none)
      let core := (ths.head?.map s.coreOfTh).getD 0
      let tk := (ths.head?.map teamOfTh).getD 0
      let s0 := s.setHandler ths false
      let r := if ths.any (fun th => laneBit e.mask (laneOfTh th)) then s0.redoRest wk e s.rpcOf else (s0, [], [])
      let d := r.1.dropEntry wk k r.2.2
      (d.1.deliver d.2).goOnAt core tk (ths.filter (fun th => !r.2.1.contains th))
    else s

/-- Every warp looked at for a KIND 5 entry that all its lanes wait for (R229). -/
def State.settleJoins (s : State) : State :=
  s.warps.foldl (fun s e =>
    if e.2.rq.any (fun q => q.kind == 5 && q.rtr != 0) then (List.range 32).foldl (fun s k => s.joinEntry e.1 (31 - k)) s else s) s

/-- RTR for threads of one warp (R229): those whose access may not be performed again yet stay at their RTR, and those of a KIND 5
entry wait there for its other lanes. -/
def State.returnWarp (s : State) (core tk wk : Nat) (ths : List Nat) : State × List Nat :=
  let n := ((SMap.look s.warps wk).map (fun w => w.rq.length)).getD 0
  let x := injectFrom n wk 0 { s := s.setHandler ths false, run := ths, traps := [], stuck := [] }
  let waiting := ths.filter (fun th => !x.run.contains th && !x.stuck.contains th && !x.traps.any (fun r => r.th == th)
    && ((SMap.look x.s.threads th).map Thread.stat) != some .extentMiss)
  let s1 := waiting.foldl (fun (s : State) th => s.updThread th (fun t => { t with stat := .rtr, inTable := false, handler := true })) x.s
  (((s1.setHandler x.stuck true).deliver x.traps).goOnAt core tk x.run, x.stuck)

/-- RTR (R197, R229). -/
def execRtr (f : Ct) (s : State) : Host.Outcome State Fault Refusal :=
  issue (.rtr f) f.g s (fun x s =>
    let inH := fun th => ((SMap.look s.threads th).map Thread.handler).getD false
    let good := x.act.filter inH
    let bad := (x.act.filter (fun th => !inH th)).map (fun th => trapAt x.g th 0x04)
    let s1 := good.foldl (fun (s : State) th => (s.leaveGroup th).updThread th (fun t => { t with stat := .held, pc := x.g.pc, came := some x.g.pc })) s
    let r := (s.warpsOf good).foldl (fun (p : State × List Nat) wk =>
      let q := p.1.returnWarp x.g.core x.g.team wk (good.filter (fun th => s.wkOf th == wk))
      (q.1, p.2 ++ q.2)) (s1, [])
    match r.2 with
    | [] => .done r.1 bad
    | stuck =>
      let s2 := stuck.foldl (fun (s : State) th => s.updThread th (fun t => { t with stat := .grouped x.gid })) r.1
      .wait ((s2.updGroup x.gid (fun g => { g with threads := x.ths.filter (fun th => stuck.contains th || g.threads.contains th) })).deliver bad)
        .counterFull)

/-! RQRD and RQWR (R228, R293). -/

/-- The entry a queue access names, by index, with its place in the queue; a travelling thread counts only those that name its lane. -/
def pickEntry (rq : List REntry) (travel : Bool) (lane k : Nat) : Option (Nat × REntry) :=
  let all := (List.range rq.length).zip rq
  (if travel then all.filter (fun e => laneBit e.2.mask lane) else all)[k]?

/-- HDR of an entry (R226). -/
def REntry.hdr (e : REntry) : W64 :=
  BitVec.ofNat 64 (e.kind + 2 ^ 4 * e.trap + 2 ^ 12 * e.w + 2 ^ 16 * e.gen + 2 ^ 20 * e.drop.toNat + 2 ^ 21 * e.halt.toNat
    + 2 ^ 24 * e.tok + 2 ^ 32 * e.idx)

/-- A field of an entry (R226, R228). -/
def State.rqField (s : State) (wk sel lane : Nat) (e : REntry) : W64 :=
  let l := e.rec_ lane
  match sel with
  | 0x00 => e.hdr
  | 0x01 => e.mask.setWidth 64
  | 0x02 => e.pc
  | 0x03 => e.aux
  | 0x10 => l.addr
  | 0x11 => l.data.setWidth 64
  | 0x12 => (l.data >>> 64).setWidth 64
  | 0x13 => l.stat
  | _ => ((s.threadAt wk lane).map s.rpcOf).getD 0

/-- A write of a field of the k-th entry (R228). -/
def State.rqPut (s : State) (wk sel lane k : Nat) (e : REntry) (v : W64) : State :=
  let l := e.rec_ lane
  let put := fun (l : RLane) => s.setEntry wk k { e with lanes := SMap.ins e.lanes lane l }
  match sel with
  | 0x00 => s.setEntry wk k { e with drop := v.getLsbD 20 }
  | 0x01 => s.setEntry wk k { e with mask := e.mask &&& lo32 v }
  | 0x03 => s.setEntry wk k { e with aux := v }
  | 0x10 => put { l with addr := v }
  | 0x11 => put { l with data := (hi64 l.data) ++ v }
  | 0x12 => put { l with data := v ++ l.data.setWidth 64 }
  | 0x20 => match s.threadAt wk lane with
    | some th => s.updThread th (fun t => { t with rpc := v })
    | none => s
  | _ => s
where
  /-- The upper half of 16 bytes. -/
  hi64 (x : BitVec 128) : W64 := (x >>> 64).setWidth 64

/-- A travelling thread's own s61 or s62; sz reads zero (R293). -/
def Thread.ownScalar (t : Thread) (r : RegField) : W64 := if r = 61 then t.h61 else if r = 62 then t.h62 else 0

/-- A write of a travelling thread's own s61 or s62. -/
def Thread.setScalar (t : Thread) (r : RegField) (v : W64) : Thread :=
  if r = 61 then { t with h61 := v } else if r = 62 then { t with h62 := v } else t

/-- Who an access to the replay queue acts for: each warp once, or each travelling thread (R228, R293); a thread that is not in handler
state raises PRIVILEGE (R197). -/
def queueForm (i : Instr) (gd : Guard) (s : State) (warp : Nat → State → State) (own : Nat → State → State) :
    Host.Outcome State Fault Refusal :=
  issue i gd s (fun x s =>
    let inH := fun th => ((SMap.look s.threads th).map Thread.handler).getD false
    let good := x.act.filter inH
    let travel := ((s.gridOfTeam x.g.team).map Grid.travel).getD false
    let s1 := if travel then good.foldl (fun s th => own th s) s else (s.warpsOf good).foldl (fun s wk => warp wk s) s
    .done s1 ((x.act.filter (fun th => !inH th)).map (fun th => trapAt x.g th 0x04)))

/-- The index register of RQRD and RQWR: YMOD word bits [11:4] (R228). -/
def rqIndex (f : Yf) : RegField := f.ymod.setWidth 8

/-- The queue of a warp. -/
def State.rqOf (s : State) (wk : Nat) : List REntry := ((SMap.look s.warps wk).map Warp.rq).getD []

/-- RQRD (R228, R293). -/
def execRqrd (f : Yf) (s : State) : Host.Outcome State Fault Refusal :=
  queueForm (.rqrd f) f.g s
    (fun wk s =>
      let ix := (s.sget wk (rqIndex f).toNat).toNat
      match pickEntry (s.rqOf wk) false 0 (ix % 32) with
      | some e => s.sset wk f.d.toNat (s.rqField wk f.sel.toNat (ix / 256 % 32) e.2)
      | none => s.sset wk f.d.toNat 0)
    (fun th s =>
      match SMap.look s.threads th with
      | none => s
      | some t =>
        let v := match pickEntry (s.rqOf t.wk) true t.lane ((t.ownScalar (rqIndex f)).toNat % 32) with
          | some e => s.rqField t.wk f.sel.toNat t.lane e.2
          | none => 0
        s.updThread th (fun t => t.setScalar f.d v))

/-- RQWR (R228, R293). -/
def execRqwr (f : Yf) (s : State) : Host.Outcome State Fault Refusal :=
  queueForm (.rqwr f) f.g s
    (fun wk s =>
      let ix := (s.sget wk (rqIndex f).toNat).toNat
      match pickEntry (s.rqOf wk) false 0 (ix % 32) with
      | some e => s.rqPut wk f.sel.toNat (ix / 256 % 32) e.1 e.2 (s.sget wk f.a.toNat)
      | none => s)
    (fun th s =>
      match SMap.look s.threads th with
      | none => s
      | some t =>
        match pickEntry (s.rqOf t.wk) true t.lane ((t.ownScalar (rqIndex f)).toNat % 32) with
        | some e => s.rqPut t.wk f.sel.toNat t.lane e.1 e.2 (t.ownScalar f.a)
        | none => s)

/-! Extent misses (R147, R357). -/

/-- The first address of an access that no extent of its core covers. -/
def State.missOf (s : State) (core : Nat) (a width : Nat) : Option Nat :=
  if (s.extentAt core a).isNone then some a
  else if (s.extentAt core (a + width - 1)).isNone then some (a + width - 1)
  else none

/-- The address that a lane of an entry misses at: of its access, of its element, or the address a copy or FORK parked at. -/
def State.laneMiss (s : State) (wk core : Nat) (e : REntry) (lane : Nat) : Option Nat :=
  let m := (s.entryInstr wk e).bind formOf
  let r := e.rec_ lane
  match m with
  | some m =>
    if e.kind = 5 then
      let j := ((List.range lane).filter (laneBit e.elems)).length
      s.missOf core ((e.aux + BitVec.ofNat 64 ((e.idx + j) * m.width)).toNat) m.width
    else if ((s.entryInstr wk e).map isCells).getD false then
      (upFrom 0 (r.data.toNat % 2 ^ 64)).findSome? (fun k => s.missOf core (r.addr.toNat + 64 * k) 64)
    else s.missOf core r.addr.toNat m.width
  | none => s.missOf core r.addr.toNat 1

/-- An entry of a park: KIND 1, or a KIND 5 remainder with no trap (R147, R154). -/
def REntry.parked (e : REntry) : Bool := !e.halt && (e.kind == 1 || (e.kind == 5 && e.trap == 0))

/-- The threads parked with an entry: its lanes', and every other that a once-per-warp form parked at the same instruction. -/
def State.parkedWith (s : State) (wk : Nat) (e : REntry) : List Nat :=
  (s.threads.filter (fun t => t.2.wk == wk && t.2.stat == .extentMiss && t.2.pc == e.pc
    && laneBit (e.mask ||| e.waits) t.2.lane)).map Prod.fst

/-- The parked lanes of an entry go on once its access may be performed (R77 to R79, R147, R154, R357): it is performed again, or its form
reissues at its own word. -/
def State.reissue (s : State) (wk k : Nat) (e : REntry) : State :=
  let ths := s.parkedWith wk e
  if s.redoHeld wk e ths then s else
  let parkPc := fun th => ((SMap.look s.threads th).map Thread.parkPc).getD 0
  let core := (ths.head?.map s.coreOfTh).getD 0
  let tk := (ths.head?.map teamOfTh).getD 0
  let s0 := ths.foldl (fun (s : State) th => s.updThread th (fun t => { t with stat := .held })) s
  let named := ths.filter (fun th => laneBit e.mask (laneOfTh th))
  let d := s0.dropEntry wk k []
  let r := if e.kind = 5 then d.1.redoRest wk e parkPc else d.1.redo wk { e with kind := 0 } (!e.chkd) named ths parkPc
  let go := ths.filter (fun th => !r.2.1.contains th)
  let s1 := r.1.deliver r.2.2
  (go.map parkPc).eraseDups.foldl (fun s1 pc => s1.resumeAt core tk (go.filter (fun th => parkPc th == pc)) pc) s1

/-- Parked lanes of an entry take a trap (R147, R357): those whose miss lies in the page; the others stay parked. -/
def State.missTrap (s : State) (wk k : Nat) (e : REntry) (code : Nat) (mine : List Nat) (va : Nat) : State :=
  let ths := (s.parkedWith wk e).filter (fun th => mine.contains (laneOfTh th) || !laneBit e.mask (laneOfTh th))
  let memory := ((s.entryInstr wk e).bind formOf).isSome
  let rest := e.mask &&& ~~~(maskOf mine)
  let parkPc := fun th => ((SMap.look s.threads th).map Thread.parkPc).getD 0
  let s0 := if rest = 0 then (s.dropEntry wk k []).1 else s.setEntry wk k { e with mask := rest }
  if memory then
    let e1 : REntry := { e with kind := (if e.kind = 5 then 5 else 0), trap := code, mask := maskOf mine
                                lanes := SMap.mapV (fun _ l => { l with stat := BitVec.ofNat 64 code }) e.lanes }
    let pe := s0.pushEntry wk e1
    let first := ((mine.head?.bind (fun l => SMap.look e.lanes l)).map RLane.addr).getD (BitVec.ofNat 64 va)
    -- a travelling thread's s62 is its own (R293)
    let info := fun th => if wk % 2 = 1 then (e.rec_ (laneOfTh th)).addr else first
    pe.1.deliver (ths.map (fun th => { th := th, code := code, info := info th, rpc := parkPc th, entry := some pe.2 }))
  else s0.deliver (ths.map (fun th => { th := th, code := code, info := e.pc, rpc := e.pc, entry := none }))

/-- The address of a parked entry's next walk: the first that a lane of it misses at (R357). -/
def State.missVa (s : State) (wk core : Nat) (e : REntry) : Option Nat :=
  ((List.range 32).filter (laneBit e.mask)).findSome? (s.laneMiss wk core e)

/-- EXTENT_MISS_RESOLVED (R357, R368): the walk for a parked entry's first miss ends: the page is installed and the lanes reissue, or
the miss waits on HOLD until an invalidate of its address completes, or the lanes that miss in the page take UNMAPPED or DATA_ERROR. -/
def State.missResolved (s : State) (wk k victim : Nat) : State :=
  match (s.rqOf wk)[k]? with
  | none => s
  | some e =>
    match e.parked && e.hold.isNone, (s.parkedWith wk e).head? with
    | true, some th =>
      let core := s.coreOfTh th
      let ck := ((s.gridOfTeam (teamOfTh th)).map Grid.ctx).getD 0
      let rs := ((s.gridOfTeam (teamOfTh th)).map Grid.ranges).getD []
      let lanes := (List.range 32).filter (laneBit e.mask)
      (match s.missVa wk core e with
       | none => s.reissue wk k e
       | some va =>
         let here := if e.kind = 5 then lanes else lanes.filter (fun l => (s.laneMiss wk core e l).any (fun a => a / 4096 == va / 4096))
         -- an occupied parameter slot needs no walk (R275, R428)
         if inParamWindow va then (s.installSlot core ck (BitVec.ofNat 64 va) victim).reissue wk k e else
         let s1 := s.noteWalk ck va
         match s.walk ck va with
         | .leaf x => (s1.install core (missExtent rs va x) victim).reissue wk k e
         | .hold => s1.setEntry wk k { e with hold := some (BitVec.ofNat 64 va) }
         | .unmapped => s1.missTrap wk k e 0x07 here va
         | .bad => s1.missTrap wk k e 0x10 here va)
    | _, _ => s

end Sys2Proof.Machine
end

