-- ==== Sys2Proof/Machine/Travel.lean ====
section
/-!
DEFINITION. Messages (R210 to R214, R292, R299) and travel: GO, GOX, SEGREP, arrival queues, rings, eviction, replicas
(R215 to R218, R284 to R292).
-/
namespace Sys2Proof.Machine

/-! Messages. -/

/-- The key of a grid's team by its index. -/
def State.teamByIdx (s : State) (gk idx : Nat) : Option Nat := (SMap.find (fun _ t => t.grid == gk && t.idx == idx) s.teams).map Prod.fst

/-- MSEND (R210, R233): ADDRESS for a target core outside the partition; a release at .pkg scope. -/
def execMsend (f : En) (s : State) : Host.Outcome State Fault Refusal :=
  issue (.msend f) f.g s (fun x s =>
    let target := fun th => (s.vget th f.p.toNat).toNat % 4096
    let p := s.partOfTeam x.g.team
    let bad := x.act.filter (fun th => !s.partHolds p (target th / 4))
    let good := x.act.filter (fun th => s.partHolds p (target th / 4))
    if good.any (fun th => !s.relReady s.nid (s.wkOf th) (s.coreOfTh th) .pkg) then .stall .order
    else
      let sent := good.map (fun th =>
        let hd := s.vget th f.p.toNat
        let m : Msg := { srcTh := th, srcTeam := BitVec.ofNat 32 (((SMap.look s.teams (teamOfTh th)).map Team.idx).getD 0),
                         srcCore := s.coreOfTh th, srcLane := laneOfTh th, tag := (hd >>> 16).setWidth 16,
                         words := (List.range (bitsOf f.emod 0 4)).map (fun k => s.vget th (f.x.toNat + k)) }
        { core := hd.toNat % 4096, grid := ((SMap.look s.teams (teamOfTh th)).map Team.grid).getD 0,
          team := (s.vget th (f.p.toNat + 1)).toNat, msg := m : Flight })
      .done { s with msgs := s.msgs ++ sent } (bad.map (fun th => trapAt x.g th 0x06)))

/-- A message matches a receive's source and tag (R212). -/
def Msg.fits (m : Msg) (src : W32) (tag : W16) (anySrc anyTag : Bool) : Bool :=
  (anySrc || m.srcTeam == src) && (anyTag || m.tag == tag)

/-- The token word of a message (R211). -/
def Msg.word (m : Msg) : W64 :=
  BitVec.ofNat 64 (1 + 256 * m.words.length + 65536 * m.tag.toNat + 2 ^ 32 * m.srcTeam.toNat)

/-- Registers of an evicted thread's parcel written (R287, R292). -/
def Parcel.putRegs (p : Parcel) (th r : Nat) (x : W64) : Parcel :=
  if p.th ≠ th then p
  else
    let live := (List.range 32).filter (laneBit p.mask)
    { p with regs := (live.zip p.regs).map (fun e => if e.1 = r then lo32 x else if e.1 = r + 1 then hi32 x else e.2) }

/-- Every parcel of the machine, changed. -/
def State.mapParcels (s : State) (h : Parcel → Parcel) : State :=
  { s with flying := s.flying.map h
           cores := SMap.mapV (fun _ c => { c with queue := c.queue.map h }) s.cores
           grids := SMap.mapV (fun _ g => { g with segs := SMap.mapV (fun _ sg => { sg with ring := sg.ring.map h }) g.segs }) s.grids }

/-! An overflow ring's memory (R217, R226, R227, R283, R287). -/

/-- The bytes of a lane record (R226). -/
def RLane.bytes (r : RLane) : List Byte := leBytes 8 r.addr.toNat ++ leBytes 16 r.data.toNat ++ leBytes 8 r.stat.toNat

/-- A replay entry's 1,056 bytes (R226). -/
def REntry.bytes (e : REntry) : List Byte :=
  leBytes 8 e.hdr.toNat ++ leBytes 8 e.mask.toNat ++ leBytes 8 e.pc.toNat ++ leBytes 8 e.aux.toNat
    ++ (List.range 32).flatMap (fun l => (e.rec_ l).bytes)

/-- The bytes of a block in lane records (R226). -/
def packLanes (bs : List Byte) : SMap RLane :=
  (List.range ((bs.length + 31) / 32)).map (fun k =>
    let x := bs.drop (32 * k)
    (k, { addr := BitVec.ofNat 64 (ofLeBytes (x.take 8)), data := BitVec.ofNat 128 (ofLeBytes ((x.drop 8).take 16)),
          stat := BitVec.ofNat 64 (ofLeBytes ((x.drop 24).take 8)) }))

/-- A parcel's bytes (R217). -/
def State.parcelBytes (s : State) (p : Parcel) : List Byte :=
  let tk := teamOfTh p.th
  let g := s.gridOfTeam tk
  leBytes 6 p.pc.toNat ++ [0, 0] ++ leBytes 4 p.mask.toNat ++ leBytes 4 ((((SMap.look s.teams tk).map Team.idx)).getD 0)
    ++ leBytes 2 (tidOf p.th) ++ leBytes 1 (laneOfTh p.th) ++ leBytes 1 p.pred.toNat ++ leBytes 1 (((g.map Grid.ctx).getD 0) % 8)
    ++ leBytes 1 ((g.map Grid.depth).getD 0) ++ leBytes 2 p.seg ++ leBytes 4 (((SMap.look s.threads p.th).map Thread.departs).getD 0)
    ++ [0, 0, 0, 0] ++ p.regs.flatMap (fun w => leBytes 4 w.toNat)

/-- Bytes 0 to 7 of lane record 31 of an eviction's entry (R287). -/
def EWait.word : EWait → W64
  | .none => 0
  | .barrier sel n => BitVec.ofNat 64 (1 + 256 * sel + 2 ^ 32 * n.toNat)
  | .sleep n => BitVec.ofNat 64 (2 + 2 ^ 32 * n.toNat)
  | .token => 3

/-- The KIND 6 entry of a parcel (R217, R227, R287): MASK names the thread's lane, or every lane for an evicted thread (assumption 132). -/
def State.parcelEntry (s : State) (p : Parcel) (halt : Bool) : REntry :=
  let out := ((SMap.look s.threads p.th).map Thread.stat) == some .evicted
  let ls := packLanes (s.parcelBytes p)
  { mkEntry 6 0 6 0 p.pc [] with
    halt := halt, mask := if out then 0xFFFFFFFF else maskOf [laneOfTh p.th]
    lanes := if out then SMap.ins ls 31 { addr := p.wait.word, data := 0, stat := 0 } else ls }

/-- The k-th entry of a segment's ring written to the context's memory, which the ring's base names (R283). -/
def State.ringWrite (s : State) (gk seg k : Nat) (p : Parcel) (halt : Bool) : State :=
  match SMap.look s.grids gk with
  | none => s
  | some g =>
    match SMap.look g.segs seg with
    | none => s
    | some sg =>
      let n := max (32 * g.warps * g.nteam) 1
      (s.writeVirt g.ctx (sg.ringBase.toNat + 1056 * ((sg.head + k) % n)) (s.parcelEntry p halt).bytes).1

/-- A segment of a grid changed. -/
def State.updSeg (s : State) (gk seg : Nat) (h : Seg → Seg) : State :=
  s.updGrid gk (fun g => { g with segs := SMap.upd g.segs seg h })

/-- A parcel appended at the tail of a segment's ring (R286). -/
def State.ringPush (s : State) (gk seg : Nat) (p : Parcel) (halt : Bool) : State :=
  let k := (((SMap.look s.grids gk).bind (fun g => SMap.look g.segs seg)).map (fun sg => sg.ring.length)).getD 0
  (s.ringWrite gk seg k p halt).updSeg gk seg (fun sg => { sg with ring := sg.ring ++ [p] })

/-- The ring entry of an evicted thread written again, as after a token word has come (R287, R292). -/
def State.ringRefresh (s : State) (th : Nat) : State :=
  s.grids.foldl (fun s g => g.2.segs.foldl (fun (s : State) sg =>
    match sg.2.ring.findIdx? (fun p => p.th == th) with
    | some k => ((sg.2.ring[k]?).map (fun p => s.ringWrite g.1 sg.1 k p false)).getD s
    | none => s) s) s

/-- An evicted thread's registers in its ring entry, as what its accesses return has changed them (R287, R296). -/
def State.refreshImage (s : State) (th : Nat) : State :=
  if ((SMap.look s.threads th).map Thread.stat) = some .evicted then
    (s.mapParcels (fun p => if p.th = th then { p with regs := ((List.range 32).filter (laneBit p.mask)).map (s.vget th) } else p)).ringRefresh th
  else s

/-- A message is delivered to a receive (R211): its words go to the buffer, then the token word to the token pair. -/
def State.giveMsg (s : State) (core : Nat) (r : Recv) (m : Msg) : State :=
  let travels := ((s.gridOfTeam (teamOfTh r.th)).map Grid.travel).getD false
  let owner := if travels then 2 * core + 1 else 2 * teamOfTh r.th
  let s1 := s.putScr owner (r.buf.toNat) (m.words.flatMap (fun w => leBytes 4 w.toNat))
  let k := vkey r.th r.tok.toNat
  let mine := SMap.look s1.vbusy k == some r.op
  let here := match (SMap.look s1.threads r.th).map Thread.stat with
    | some .evicted => false
    | _ => true
  if !mine || r.tok = 255 then s1
  else
    let s2 := { s1 with vbusy := SMap.del (SMap.del s1.vbusy k) (k + 1) }
    let s3 := s2.vsetp r.th r.tok.toNat m.word
    if here then s3 else (s3.mapParcels (fun p => p.putRegs r.th r.tok.toNat m.word)).ringRefresh r.th

/-- A team's overflow queue on a core: the team's own, or the segment core's (R212, R292). -/
def State.ovfOf (s : State) (core tk : Nat) (travel : Bool) : List Msg :=
  if travel then ((s.coreOf core).ovf.filter (fun e => e.1 == tk)).map Prod.snd
  else ((SMap.look s.teams tk).map Team.ovf).getD []

/-- The overflow queue replaced. -/
def State.setOvf (s : State) (core tk : Nat) (travel : Bool) (q : List Msg) : State :=
  if travel then s.updCore core (fun c => { c with ovf := c.ovf.filter (fun e => e.1 != tk) ++ q.map (fun m => (tk, m)) })
  else s.updTeam tk (fun t => { t with ovf := q })

/-- What P of MRECV and MPROBE asks (R211). -/
def State.recvAsk (s : State) (th : Nat) (p : RegField) : W32 × W16 × Bool × Bool :=
  let hd := s.vget th p.toNat
  (s.vget th (p.toNat + 1), (hd >>> 16).setWidth 16, hd.getLsbD 12, hd.getLsbD 13)

/-- One thread posts a receive: an overflowed message is delivered at once, else it enters the posted list; none while that is full. -/
def State.postRecv (s : State) (f : En) (th core : Nat) (travel : Bool) : Option State :=
  let q := s.recvAsk th f.p
  let tk := teamOfTh th
  let r : Recv := { op := s.nid, team := tk, th := th, src := q.1, tag := q.2.1, anySrc := q.2.2.1, anyTag := q.2.2.2,
                    buf := (s.vget th f.x.toNat).setWidth 64, tok := f.t }
  let ovf := s.ovfOf core tk travel
  let s1 := (s.newId).2.busyLane th (some f.t) 2 r.op
  match ovf.find? (fun m => m.fits r.src r.tag r.anySrc r.anyTag) with
  | some m => some ((s1.setOvf core tk travel (ovf.erase m)).giveMsg core r m)
  | none =>
    if 16 ≤ (s.coreOf core).posted.length then none
    else some (s1.updCore core (fun c => { c with posted := c.posted ++ [r] }))

/-- MRECV (R211, R233): the buffer's checks, then the receives are posted in ascending lane order; a full list holds the group back. -/
def execMrecv (f : En) (s : State) : Host.Outcome State Fault Refusal :=
  issue (.mrecv f) f.g s (fun x s =>
    let c := s.ctxOfTeam x.g.team
    let travel := ((s.gridOfTeam x.g.team).map Grid.travel).getD false
    let done := fun (s : State) th => ((SMap.look s.threads th).map Thread.rdvDone).getD false
    let ask := fun th => ({ wh := .local_, addr := (s.vget th f.x.toNat).setWidth 64, width := 32, align := 32,
                            isRead := false, isWrite := true, watch := false } : Ask)
    let verdict := fun th =>
      let q := s.recvAsk th f.p
      if c.det && (q.2.2.1 || q.2.2.2) then 0x11
      else match s.check th (ask th) with | .trap k => k | _ => 0
    let fresh := x.act.filter (fun th => !done s th)
    let traps := (fresh.filter (fun th => verdict th != 0)).map (fun th => trapAt x.g th (verdict th))
    let good := fresh.filter (fun th => verdict th == 0)
    let r := good.foldl (fun (p : State × Bool) th =>
      if p.2 then p
      else match p.1.postRecv f th x.g.core travel with
        | some s1 => (s1.updThread th (fun t => { t with rdvDone := true }), false)
        | none => (p.1, true)) (s, false)
    if r.2 then .wait (r.1.deliver traps) .receiveList
    else .done (x.ths.foldl (fun s th => s.updThread th (fun t => { t with rdvDone := false })) r.1) traps)

/-- MPROBE (R213, R233). -/
def execMprobe (f : En) (s : State) : Host.Outcome State Fault Refusal :=
  issue (.mprobe f) f.g s (fun x s =>
    let c := s.ctxOfTeam x.g.team
    let travel := ((s.gridOfTeam x.g.team).map Grid.travel).getD false
    let bad := fun th => let q := s.recvAsk th f.p; c.det && (q.2.2.1 || q.2.2.2)
    .done ((x.act.filter (fun th => !bad th)).foldl (fun (s : State) th =>
      let q := s.recvAsk th f.p
      s.vsetp th f.d.toNat
        ((((s.ovfOf x.g.core (teamOfTh th) travel).find? (fun m => m.fits q.1 q.2.1 q.2.2.1 q.2.2.2)).map Msg.word).getD 0)) s)
      ((x.act.filter bad).map (fun th => trapAt x.g th 0x11)))

/-- A thread waits, so that an asynchronous trap reaches it at once (R214). -/
def State.waits (s : State) (th : Nat) : Bool :=
  match SMap.look s.threads th with
  | some t =>
    match t.stat with
    | .grouped gid => ((SMap.look s.groups gid).map (fun g => g.stall != .none)).getD false
    | .ready | .exited | .held => false
    | _ => true
  | none => false

/-- MSG_OVERFLOW for a thread (R214): at its next clause boundary, or at once while it waits. -/
def State.owe (s : State) (th : Nat) : State :=
  if s.waits th then
    let r := s.overflowTrap th (s.stopPoint th)
    (s.updThread th (fun t => if t.stat = .exiting then { t with stat := .held } else t)).deliver [r]
  else s.updThread th (fun t => { t with msgOvf := true })

/-- A message finds its overflow queue full and is dropped (R214, R292). -/
def State.dropMsg (s : State) (core tk : Nat) (travel : Bool) (m : Msg) : State :=
  let s1 := s.updTeam tk (fun t => { t with ovfBy := some m })
  if !travel then
    match s1.threads.find? (fun e => teamOfTh e.1 == tk && e.2.stat != .exited) with
    | some (th, _) => s1.owe th
    | none => s1
  else
    let here := s1.threads.filter (fun e => teamOfTh e.1 == tk && e.2.wk % 2 == 1 && e.2.wk / 2 / 64 == core
      && e.2.stat != .exited && e.2.stat != .parcel && e.2.stat != .evicted)
    match here.foldl (fun (b : Option (Nat × Nat)) e =>
        match b with
        | none => some (e.2.lane, e.1)
        | some x => if e.2.lane < x.1 then some (e.2.lane, e.1) else some x) none with
    | some (_, th) => s1.owe th
    | none => s1.updCore core (fun c => { c with owed := c.owed ++ [tk] })

/-- MSG_DISCARD (R212, R326). -/
def State.discardMsg (s : State) (fl : Flight) : State :=
  let ck := ((SMap.look s.grids fl.grid).map Grid.ctx).getD 0
  s.post (ck / 8) 0x0011 [(8, 2, fl.msg.srcCore), (10, 1, fl.msg.srcLane), (11, 1, ck % 8), (12, 4, fl.msg.srcTeam.toNat),
    (16, 4, fl.team), (20, 2, fl.msg.tag.toNat)]

/-- A message is matched against the receives posted for its team on a core, in posting order, or enters the overflow queue (R212). -/
def State.matchMsg (s : State) (core tk : Nat) (travel : Bool) (m : Msg) : State :=
  match (s.coreOf core).posted.find? (fun r => r.team == tk && m.fits r.src r.tag r.anySrc r.anyTag) with
  | some r => (s.updCore core (fun c => { c with posted := c.posted.filter (fun q => q.op != r.op) })).giveMsg core r m
  | none =>
    let q := s.ovfOf core tk travel
    if 32 ≤ q.length then s.dropMsg core tk travel m else s.setOvf core tk travel (q ++ [m])

/-- MESSAGE_ARRIVAL (R212, R214, R292): the n-th message on its way arrives, unless an older one of its sender to its team has not. -/
def State.messageArrival (s : State) (n : Nat) : State :=
  match s.msgs[n]? with
  | none => s
  | some fl =>
    if (s.msgs.take n).any (fun e => e.msg.srcTh == fl.msg.srcTh && e.team == fl.team && e.grid == fl.grid) then s
    else
      let s1 := { s with msgs := s.msgs.take n ++ s.msgs.drop (n + 1) }
      match s.teamByIdx fl.grid fl.team, SMap.look s.grids fl.grid with
      | some tk, some g =>
        match (SMap.look s.teams tk).map (fun t => (t.at_, t.core)) with
        | none => s1.discardMsg fl
        | some (a, core) =>
          if g.travel then
            if a = .retired || a = .retiring || s.teamLive tk == 0 then s1.discardMsg fl
            else match (s.coreOf fl.core).seg with
              | some (gk, _) => if gk = fl.grid then s1.matchMsg fl.core tk true fl.msg else s1.discardMsg fl
              | none => s1.discardMsg fl
          else match a with
            | .unplaced => s
            | .retiring | .retired => s1.discardMsg fl
            | .placed => if s.teamLive tk = 0 then s1.discardMsg fl else s1.matchMsg core tk false fl.msg
            | .suspended | .halted =>
              let q := s.ovfOf core tk false
              if 32 ≤ q.length then s1.dropMsg core tk false fl.msg else s1.setOvf core tk false (q ++ [fl.msg])
      | _, _ => s1.discardMsg fl

/-- A team back on a core posts its receives there again; messages that came meanwhile are matched with them (R212, R263). -/
def State.landReceives (s : State) (tk core : Nat) : State :=
  match SMap.look s.teams tk with
  | none => s
  | some t =>
    t.posted.foldl (fun s r =>
      let q := s.ovfOf core tk false
      match q.find? (fun m => m.fits r.src r.tag r.anySrc r.anyTag) with
      | some m => (s.setOvf core tk false (q.erase m)).giveMsg core r m
      | none => s.updCore core (fun c => { c with posted := c.posted ++ [r] })) (s.updTeam tk (fun t => { t with posted := [] }))

/-! GO and GOX (R215, R216). -/

/-- GO (R215). -/
def execGo (f : Ct) (s : State) : Host.Outcome State Fault Refusal :=
  transfer (.go f) f.g s { target := fun s _ _ => relTarget f s, mask := fun s th => s.vget th f.a.toNat, link := false,
                           least := f.cmod.getLsbD 0 }

/-- GOX (R215): a quad of lane registers holds the target and the live mask. -/
def execGox (f : Ct) (s : State) : Host.Outcome State Fault Refusal :=
  transfer (.gox f) f.g s { target := fun s _ th => s.vgetp th f.a.toNat + Ct.offset f
                            mask := fun s th => s.vget th (f.a.toNat + 2), link := false, least := f.cmod.getLsbD 0 }

/-! Queues and rings (R216, R284 to R287). -/

/-- The clusters that a partition of a resize loses. -/
def State.departing (s : State) (es : List REnt) : List Nat :=
  es.flatMap (fun e => (upFrom (s.partBase e.part) (s.partLimit e.part - s.partBase e.part)).filter (fun c =>
    !(decide (e.base ≤ c ∧ c < e.limit))))

/-- The segment on a core moves: its cluster leaves the partition, and the resize is under way (R295, R348). -/
def State.segMoving (s : State) (core : Nat) : Bool :=
  match s.rsz with
  | some r => r.state == 3 && (s.departing r.ents).contains (core / 4)
  | none => false

/-- The segment a parcel goes to, with its grid's key. -/
def State.parcelSeg (s : State) (p : Parcel) : Option (Nat × Seg) :=
  match SMap.look s.teams (teamOfTh p.th) with
  | some t => ((SMap.look s.grids t.grid).bind (fun g => SMap.look g.segs p.seg)).map (fun sg => (t.grid, sg))
  | none => none

/-- QDEPTH of the grid a segment core serves (R312). -/
def State.qdepth (s : State) (core : Nat) : Nat :=
  ((((s.coreOf core).seg).bind (fun p => SMap.look s.grids p.1)).map Grid.qdepth).getD 64

/-- A queue's room for a departure: a quarter of it is kept for the ring while that holds any entry (R286, R312). -/
def State.queueOpen (s : State) (sg : Seg) (core : Nat) : Bool :=
  let q := s.qdepth core
  decide ((s.coreOf core).queue.length < (if sg.ring.isEmpty then q else q - q / 4))

/-- PARCEL_ENQUEUE (R216): the n-th waiting departure enters its queue, or is found waiting at a full one. -/
def State.parcelEnqueue (s : State) (n : Nat) : State :=
  match s.flying[n]? with
  | none => s
  | some p =>
    match s.parcelSeg p with
    | none => s
    | some (gk, sg) =>
      if s.segMoving p.dst then s
      else if s.queueOpen sg p.dst then
        { s with flying := s.flying.take n ++ s.flying.drop (n + 1) }.updCore p.dst (fun c => { c with queue := c.queue ++ [p] })
      else if p.full then s
      else { s with flying := s.flying.set n { p with full := true, at_ := s.clusCyc (p.dst / 4) } }.updSeg gk p.seg
        (fun sg => { sg with qfull := sg.qfull + 1 })

/-- PARCEL_SPILL (R216, R286, R295): a departure that has waited 4,096 cluster cycles, or whose target moves, goes to the ring's tail.
DESIGN CHOICE (log 35): the cycles are those of the target core's cluster. -/
def State.parcelSpill (s : State) (n : Nat) : State :=
  match s.flying[n]? with
  | none => s
  | some p =>
    match s.parcelSeg p with
    | none => s
    | some (gk, _) =>
      if (p.full ∧ p.at_ + 4096 ≤ s.clusCyc (p.dst / 4)) ∨ s.segMoving p.dst then
        ({ s with flying := s.flying.take n ++ s.flying.drop (n + 1) }.ringPush gk p.seg p false).updSeg gk p.seg
          (fun sg => { sg with spills := sg.spills + 1 })
      else s

/-- A thread that stands in a slot of a segment core. -/
def Thread.inSlot (t : Thread) : Bool :=
  t.wk % 2 == 1 && t.stat != .parcel && t.stat != .evicted && t.stat != .exited

/-- A thread holds its slot: it stands there, or its departure has not entered a queue or a ring yet (R216 steps 4 and 5). -/
def State.holdsSlot (s : State) (th : Nat) (t : Thread) : Bool := t.inSlot || (t.wk % 2 == 1 && t.stat == .parcel && s.flying.any (fun p => p.th == th))

/-- The slot a parcel of a lane gets: the lowest free of 0 to 62, or of LSLOTS, else the transit slot (R284, R312). -/
def State.slotFor (s : State) (core lane : Nat) : Option Nat :=
  let n := ((((s.coreOf core).seg).bind (fun p => SMap.look s.grids p.1)).map Grid.lslots).getD 63
  (List.range 64).find? (fun k => (decide (k < n) || k == 63) &&
    !s.threads.any (fun e => s.holdsSlot e.1 e.2 && e.2.wk == slotKey core k && e.2.lane == lane))

/-- A warp slot that holds nothing yet. -/
def Warp.fresh (team idx : Nat) : Warp :=
  { team := team, idx := idx, entries := [], rq := [], held := [], gen := 0, seq := 0, bsel := 0, wtimer := 0, wtAt := 0,
    freed := false }

/-- The registers an admission writes (R216, R285): the shipped ones; the others have read zero since the departure, but for a token word
that has come meanwhile (R292). -/
def State.unpack (s : State) (p : Parcel) : State :=
  let live := (List.range 32).filter (laneBit p.mask)
  let s2 := (live.zip p.regs).foldl (fun (s : State) e => s.vset p.th e.1 e.2) s
  (List.range 7).foldl (fun s k => s.pset p.th k (p.pred.getLsbD k)) s2

/-- A thread leaves its transit slot for its segment's ring at a blocking wait (R287). -/
def State.evict (s : State) (th : Nat) (pc : W64) (w : EWait) : State :=
  match SMap.look s.threads th, SMap.look s.teams (teamOfTh th) with
  | some t, some tm =>
    let p : Parcel := { s.parcelOf th pc 0xFFFFFFFF t.seg 0 with wait := w }
    ((s.leaveGroup th).updThread th (fun t => { t with stat := .evicted, inTable := false, pc := pc, wait := w })).ringPush tm.grid t.seg p
      false
  | _, _ => s

/-- A thread just admitted goes on: a plain arrival at its PC, which must be a clause header; an evicted one with its wait (R285,
R287). -/
def State.goOn (s : State) (core : Nat) (p : Parcel) (was : TStat) : State :=
  let tk := teamOfTh p.th
  let w := ((SMap.look s.threads p.th).map Thread.wait).getD .none
  let s1 := s.updThread p.th (fun t => { t with wait := .none })
  if was = .evicted then
    match w with
    | .barrier _ n =>
      (s1.updThread p.th (fun t => { t with barAt := SMap.ins t.barAt p.pc.toNat n })).resumeAt core tk [p.th] p.pc
    | .sleep n => s1.updThread p.th (fun t => { t with stat := .asleep, pc := p.pc, sleepEnd := if n = 0 then none else some n,
                                                        sleepAt := s.teamCyc tk })
    | _ => s1.resumeAt core tk [p.th] p.pc
  else
    match s.gridOfTeam tk with
    | some g =>
      if s.isHeader g.code p.pc then (s1.updThread p.th (fun t => { t with pc := p.pc })).atBoundary p.th
      else s1.deliver [{ th := p.th, code := 0x01, info := p.pc, rpc := p.pc, entry := none, rec_ := some (s1.decodeRec p.th p.pc 0) }]
    | none => s1

/-- An empty warp slot's %wtimer goes on in the context cycles of the team whose thread is admitted to it first (R104; DESIGN CHOICE, assumption 35). -/
def State.adopt (s : State) (wk tk : Nat) : State :=
  let n := s.wtimerOf wk
  s.updWarp wk (fun w => { w with team := tk, wtimer := n, wtAt := s.teamCyc tk })

/-- PARCEL_ADMIT (R285): the first parcel of a lane in a core's queue takes a slot. -/
def State.parcelAdmit (s : State) (core lane : Nat) : State :=
  match (s.coreOf core).queue.find? (fun p => laneOfTh p.th == lane), s.slotFor core lane with
  | some p, some slot =>
    let wk := slotKey core slot
    let was := ((SMap.look s.threads p.th).map Thread.stat).getD .parcel
    let s1 := s.updCore core (fun c => { c with queue := c.queue.filter (fun q => q.th != p.th) })
    let s2 := match SMap.look s1.warps wk with
      | none => { s1 with warps := SMap.ins s1.warps wk (Warp.fresh (teamOfTh p.th) slot) }
      | some _ => if s1.threads.any (fun e => s1.holdsSlot e.1 e.2 && e.2.wk == wk) then s1 else s1.adopt wk (teamOfTh p.th)
    -- an evicted thread's registers have gone on taking what its accesses return (R287, R296)
    let s3 := (if was = .evicted then s2 else s2.unpack p).updThread p.th (fun t => { t with wk := wk, stat := .ready, inTable := false, seg := p.seg, pc := p.pc })
    let s4 := match SMap.look s.teams (teamOfTh p.th) with
      | some tm => s3.updSeg tm.grid p.seg (fun sg => { sg with admitted := sg.admitted + 1 })
      | none => s3
    let s5 := if (s4.coreOf core).owed.contains (teamOfTh p.th) then
        (s4.updCore core (fun c => { c with owed := c.owed.erase (teamOfTh p.th) })).updThread p.th (fun t => { t with msgOvf := true })
      else s4
    s5.goOn core p was
  | _, _ => s

/-- Parcels move from a ring's head to a replica's queue while at least a quarter of the queue is free (R286, R312). -/
def drainParcels : Nat → Nat → Nat → Nat → State → State
  | 0, _, _, _, s => s
  | n + 1, core, gk, seg, s =>
    match ((SMap.look s.grids gk).bind (fun g => SMap.look g.segs seg)).map Seg.ring with
    | some (p :: ps) =>
      if (s.coreOf core).queue.length ≤ s.qdepth core - s.qdepth core / 4 then
        drainParcels n core gk seg ((s.updSeg gk seg (fun sg => { sg with ring := ps, head := sg.head + 1 })).updCore core
          (fun c => { c with queue := c.queue ++ [{ p with dst := core }] }))
      else s
    | _ => s

/-- RING_DRAIN (R286, R295): a replica whose queue has at least 16 free entries, and that does not move, takes from its segment's ring. -/
def State.ringDrain (s : State) (core : Nat) : State :=
  match (s.coreOf core).seg with
  | some (gk, seg) => if s.segMoving core then s else drainParcels 65 core gk seg s
  | none => s

/-- The instruction a group stands at. -/
def State.instrOf (s : State) (g : Group) : Option Instr :=
  ((SMap.look s.teams g.team).bind (fun t => SMap.look s.grids t.grid)).bind (fun gr =>
    (s.codeWord gr.code g.pc).bind (fun w => (decodeWord w).toOption))

/-- A stalled group's thread waits for a pending receive token (R287). -/
def State.tokenWait (s : State) (g : Group) (th : Nat) : Bool :=
  match s.instrOf g with
  | some i =>
    let sh := lockShape i
    (laneRegs (sh.reads ++ sh.writes)).any (fun r =>
      match SMap.look s.vbusy (vkey th r) with
      | some op => s.cores.any (fun e => e.2.posted.any (fun q => q.op == op))
      | none => false)
  | none => false

/-- The word a group stands at. -/
def State.wordOf (s : State) (g : Group) : Option W64 := (s.gridOfTeam g.team).bind (fun gr => s.codeWord gr.code g.pc)

/-- A thread's guard is true at the word its group stands at (R38). -/
def State.guarded (s : State) (g : Group) (th : Nat) : Bool := s.guard th (Instr.guardOf (s.wordOf g))

/-- The barrier wait of a thread at BAR or BARWT: its identifier and phase (R287). A thread whose guard is false, or that BAR has not
counted yet, waits for nothing of its own: it issues the form again. -/
def State.barWait (s : State) (g : Group) (th : Nat) : EWait :=
  match s.instrOf g with
  | some (.barwt f) => if s.guarded g th then .barrier f.sel.toNat (s.vget th f.a.toNat) else .none
  | some (.bar f) => ((s.arrivedAt th g.pc).map (fun n => EWait.barrier f.sel.toNat n)).getD .none
  | _ => .none

/-- The registers a waiting departure ships (R215, R216). -/
def State.departMask (s : State) (g : Group) (th : Nat) : W32 :=
  match s.instrOf g with
  | some (.go f) => s.vget th f.a.toNat
  | some (.gox f) => s.vget th (f.a.toNat + 2)
  | _ => 0xFFFFFFFF

/-- A departure waits for the token word of a posted receive that it ships (R216 step 1, R287). -/
def State.departWaits (s : State) (g : Group) (th : Nat) : Bool :=
  s.guarded g th && (List.range 32).any (fun r => laneBit (s.departMask g th) r &&
    (match SMap.look s.vbusy (vkey th r) with
     | some op => s.cores.any (fun e => e.2.posted.any (fun q => q.op == op))
     | none => false))

/-- Threads in transit slots that stand at a blocking wait are evicted (R287). -/
def State.settleEvict (s : State) : State :=
  s.threads.foldl (fun s e =>
    match SMap.look s.threads e.1 with
    | some t =>
      if !(t.inSlot && t.wk / 2 % 64 == 63) then s
      else match t.stat with
        | .asleep =>
          let left := match t.sleepEnd with
            | some n => BitVec.ofNat 32 (max 1 (n.toNat - (s.teamCyc (teamOfTh e.1) - t.sleepAt)))
            | none => 0
          s.evict e.1 t.pc (.sleep left)
        | .grouped gid =>
          match SMap.look s.groups gid with
          | some g =>
            let waits := fun th => (g.stall == .register && s.tokenWait g th) || (g.stall == .depart && s.departWaits g th)
            if g.stall = .barrier then s.evict e.1 g.pc (s.barWait g e.1)
            else if waits e.1 then s.evict e.1 g.pc .token
            else if g.threads.any waits then s.evict e.1 g.pc .none   -- it stands still for a mate's wait (R288)
            else s
          | none => s
        | _ => s
    | none => s) s

/-! Replicas (R218, R289 to R291). -/

/-- SEGREP (R218): the request is under way; the elected thread raises no trap. -/
def execSegrep (f : En) (s : State) : Host.Outcome State Fault Refusal :=
  issue (.segrep f) f.g s (fun x s => .done (x.wks.foldl (fun s wk =>
    let v := s.sget wk f.p.toNat
    let n := s.newId
    let r : SegReq := { ctx := ((s.gridOfTeam x.g.team).map Grid.ctx).getD 0, tok := some (wk, f.t), grid := hi32 v,
                        seg := v.toNat % 1024, pref := if f.x = 63 then none else some ((s.sget wk f.x.toNat).toNat % 4096) }
    let s1 := n.2.busyScalar wk f.t n.1
    { s1 with segreqs := SMap.ins s1.segreqs n.1 r }) s) [])

/-- The core a replication takes (R218): the preferred one where it is eligible, else by planishing. -/
def State.replicaCore (s : State) (g : Grid) (p : Nat) (pref : Option Nat) : Option Nat :=
  let ok := (s.partCores p).filter (fun c => (s.coreOf c).seg.isNone && !s.holdsTeam c && s.slotRoom g c)
  match pref with
  | some c => if ok.contains c then some c else s.planish ok
  | none => s.planish ok

end Sys2Proof.Machine
end

