-- ==== Sys2Proof/Machine/Image.lean ====
section
/-!
DEFINITION. Kernel images and graph images as the front end reads and validates them (R24 to R28, R320, R321).
-/
namespace Sys2Proof.Machine

/-- Bytes inside a block; none where they reach past its end. -/
def subBytes (bs : List Byte) (o n : Nat) : Option (List Byte) := if o + n ≤ bs.length then some ((bs.drop o).take n) else none

/-- Every byte of a part is zero. -/
def zerosAt (bs : List Byte) (o n : Nat) : Bool := ((bs.drop o).take n).all (fun b => b == 0)

/-- A block cut into records of one size. -/
def records : Nat → Nat → List Byte → List (List Byte)
  | 0, _, _ => []
  | k + 1, n, bs => bs.take n :: records k n (bs.drop n)

/-- Every answer of a list, or none. -/
def allSome {α : Type} : List (Option α) → Option (List α)
  | [] => some []
  | none :: _ => none
  | some x :: xs => (allSome xs).map (fun ys => x :: ys)

/-! Kernel images (R24 to R28). -/

/-- A segment record (R25): index, code offset, length, handler offset; a handler outside its segment is invalid (R26). -/
def segmentOf (r : List Byte) : Option (Nat × Nat × Nat × Option Nat) :=
  let o := blkField r 4 4
  let n := blkField r 8 4
  let h := blkField r 12 4
  if h = 0xFFFFFFFF then some (blkField r 0 4, o, n, none)
  else if o ≤ h ∧ h < o + n then some (blkField r 0 4, o, n, some h)
  else none

/-- An entry record (R25); none where a field stands outside its values or a reserved one is nonzero (R26). -/
def entryOf (img r : List Byte) : Option Entry :=
  let fl := blkField r 18 2
  let warps := blkByte r 8
  let cg := blkByte r 9
  let nseg := blkField r 24 2
  let so := blkField r 20 4
  if warps = 0 ∨ 64 < warps ∨ cg = 0 ∨ 4 < cg ∨ 1024 < nseg ∨ 4 ≤ fl ∨ !zerosAt r 26 38 then none
  else
    match subBytes img so (16 * nseg) with
    | none => none
    | some sb =>
      (allSome ((records nseg 16 sb).map segmentOf)).map (fun segs =>
        { code := blkField r 4 4, warps := warps, cg := cg, nv := blkByte r 10, ns := blkByte r 11, scratch := blkField r 12 4,
          params := blkField r 16 2, travel := decide (fl % 2 = 1), det := decide (fl / 2 = 1), segs := segs })

/-- A symbol record's reserved fields are zero (R28). -/
def symbolOk (r : List Byte) : Bool := decide (blkByte r 12 < 4 ∧ blkByte r 13 < 2) && zerosAt r 14 2

/-- The symbol table of an image is sound (R26, R28). -/
def symbolsOk (t : List Byte) : Bool :=
  t.isEmpty || (decide (8 ≤ t.length) &&
    (match subBytes t 8 (16 * blkField t 0 4) with
     | some rs => (records (blkField t 0 4) 16 rs).all symbolOk
     | none => false))

/-- A kernel image that R26 and R27 accept: its code words and what a launch needs of it. DESIGN CHOICE: a layout broken in ways R26
does not list is refused as those it lists (assumption 140). -/
def imageOf (img : List Byte) : Option (List W64 × Image) :=
  let csize := blkField img 16 8
  let nent := blkField img 44 2
  if img.length < 64 ∨ blkField img 0 4 ≠ 0x30345A56 ∨ blkField img 4 2 ≠ 1 ∨ blkField img 6 2 ≠ 0x40 ∨ blkField img 46 2 ≠ 0
      ∨ nent = 0 ∨ csize % 8 ≠ 0 ∨ 0x1000000 < csize ∨ (img.drop 56).take 8 ≠ (sha256 (img.drop 64)).take 8 then none
  else
    match subBytes img (blkField img 8 8) csize, subBytes img (blkField img 24 4) (blkField img 28 4),
        subBytes img (blkField img 32 4) (blkField img 36 4), subBytes img (blkField img 40 4) (64 * nent),
        subBytes img (blkField img 48 4) (blkField img 52 4) with
    | some code, some consts, some data, some ents, some syms =>
      if !symbolsOk syms then none
      else (allSome ((records nent 64 ents).map (entryOf img))).map (fun es =>
        ((records (csize / 8) 8 code).map (fun w => BitVec.ofNat 64 (ofLeBytes w)),
         { code := 0, entries := es, consts := consts, data := data, cva := 0, dva := 0 }))
    | _, _, _, _, _ => none

/-- The virtual address of image `i`'s code (R27). -/
def imageBase (i : Nat) : W64 := BitVec.ofNat 64 (0xFE0000000000 + 0x1000000 * i)

/-- An accepted image loaded as image `i`: its code gets a key of its own. -/
def State.loadImage (s : State) (i : Nat) (p : List W64 × Image) : State × Image :=
  let k := SMap.fresh s.codes
  ({ s with codes := SMap.ins s.codes k { base := imageBase i, words := p.1 } }, { p.2 with code := k })

/-! Graph images (R320, R321). -/

/-- One range of a set (R321); none where a reserved bit is set. -/
def rangeOf (r : List Byte) : Option ORange :=
  let c := blkField r 16 8
  if 32 ≤ c then none
  else some { va := blkField r 0 8, len := blkField r 8 8, acc := c % 4, reuse := c / 4 % 4, stack := decide (c / 16 = 1) }

/-- A range set of 384 bytes (R321). -/
def rangeSetOf (b : List Byte) : Option (List ORange) := allSome ((records 16 24 b).map rangeOf)

/-- The tables of a graph image as DMA reads them. -/
structure Tables where
  nodes  : List (List Byte)
  edges  : List Nat
  sets   : List (List Byte)
  images : List (List Byte)

/-- The header and the tables (R320, R321): the status of a failure, or the tables. -/
def State.readTables (s : State) (a : Nat) : Except Nat Tables :=
  match s.dmaRead a 64 with
  | none => .error 4
  | some h =>
    let nn := blkField h 4 4
    let ne := blkField h 8 4
    let ns := blkField h 12 2
    let ni := blkField h 14 2
    if blkField h 0 4 ≠ 0x46415247 ∨ !zerosAt h 48 16 then .error 4
    else if nn = 0 ∨ 65536 < nn ∨ 131072 < ne ∨ 256 < ns ∨ ni = 0 ∨ 16 < ni then .error 2
    else
      match s.dmaRead (a + blkField h 16 8) (48 * nn), s.dmaRead (a + blkField h 24 8) (4 * ne),
          s.dmaRead (a + blkField h 32 8) (384 * ns), s.dmaRead (a + blkField h 40 8) (32 * ni) with
      | some nb, some eb, some sb, some ib =>
        .ok { nodes := records nn 48 nb, edges := (records ne 4 eb).map ofLeBytes, sets := records ns 384 sb, images := records ni 32 ib }
      | _, _, _, _ => .error 4

/-- One node (R321); none where a reserved field is nonzero, an index is out of range, or an edge is malformed. -/
def nodeOf (t : Tables) (imgs : List Image) (r : List Byte) : Option GNode :=
  let fl := blkField r 14 2
  let rs := blkField r 12 2
  let first := blkField r 32 4
  let n := blkField r 36 4
  let es := (t.edges.drop first).take n
  match imgs[blkByte r 0]? with
  | none => none
  | some im =>
    if blkByte r 3 ≠ 0 ∨ 16 ≤ fl ∨ !zerosAt r 40 8 ∨ im.entries.length ≤ blkField r 4 4 ∨ (rs ≠ 0xFFFF ∧ t.sets.length ≤ rs)
        ∨ t.edges.length < first + n ∨ es.any (fun e => decide (0x20000 ≤ e ∨ t.nodes.length ≤ e % 0x10000)) then none
    else some
      { image := blkByte r 0, qdepth := blkByte r 1, lslots := blkByte r 2, entry := blkField r 4 4, teams := blkField r 8 4
        ranges := if rs = 0xFFFF then none else some rs, cor := decide (fl % 2 = 1), arep := decide (fl / 2 % 2 = 1)
        bmap := if fl / 4 % 2 = 1 then some (BitVec.ofNat 64 (blkField r 24 8)) else none, quiet := decide (fl / 8 % 2 = 1)
        param := BitVec.ofNat 64 (blkField r 16 8), succs := es.map (fun e => (e % 0x10000, decide (e / 0x10000 = 1))) }

/-- Predecessors of a node. -/
def predsOf (ns : List GNode) (i : Nat) : List (Nat × Bool) :=
  (List.range ns.length).flatMap (fun k => (((ns[k]?).map GNode.succs).getD []).filterMap (fun e => if e.1 = i then some (k, e.2) else none))

/-- Nodes left after those without predecessors among them are taken away, again and again; none are left of a graph without a cycle. -/
def peel (ns : List GNode) : Nat → List Nat → List Nat
  | 0, l => l
  | n + 1, l => peel ns n (l.filter (fun i => (predsOf ns i).any (fun p => l.contains p.1)))

/-- A kernel image of a graph's table (R27, R320, R321): 4 for one that fails R26, 2 for a malformed entry. -/
def State.readImage (s : State) (i : Nat) (r : List Byte) : Except Nat (State × Image) :=
  match (s.dmaRead (blkField r 0 8) (blkField r 8 8)).bind imageOf with
  | none => .error 4
  | some p =>
    let cva := blkField r 16 8
    let dva := blkField r 24 8
    if cva % 4096 ≠ 0 ∨ dva % 4096 ≠ 0 ∨ (p.2.consts.isEmpty ∧ cva ≠ 0) ∨ (p.2.data.isEmpty ∧ dva ≠ 0) then .error 2
    else
      let d := s.loadImage i p
      .ok (d.1, { d.2 with cva := BitVec.ofNat 64 cva, dva := BitVec.ofNat 64 dva })

/-- The images of a graph's table in order. -/
def State.readImages (s : State) : Nat → List (List Byte) → Except Nat (State × List Image)
  | _, [] => .ok (s, [])
  | i, r :: rs =>
    match s.readImage i r with
    | .error e => .error e
    | .ok (s1, im) =>
      match s1.readImages (i + 1) rs with
      | .error e => .error e
      | .ok (s2, ims) => .ok (s2, im :: ims)

/-- A graph image read by DMA and validated (R320, R321): the status of a failure, or the graph with its code loaded. -/
def State.readGraph (s : State) (a : Nat) : Except Nat (State × Graph) :=
  match s.readTables a with
  | .error e => .error e
  | .ok t =>
    match s.readImages 0 t.images with
    | .error e => .error e
    | .ok (s1, ims) =>
      match allSome (t.nodes.map (nodeOf t ims)), allSome (t.sets.map rangeSetOf) with
      | some ns, some sets =>
        if !(peel ns ns.length (List.range ns.length)).isEmpty
            || (List.range ns.length).any (fun i => decide (65535 < (predsOf ns i).length)) then .error 2
        else .ok (s1, { nodes := ns, ranges := sets, images := ims })
      | _, _ => .error 2

end Sys2Proof.Machine
end

