-- ==== Sys2Proof/Machine/Launch.lean ====
section
/-!
DEFINITION. Launches: what refuses one, accepting a grid, parameter slots, and how a grid, its node and its run end
(R23, R203 to R207, R255, R258, R259, R273, R281 to R284, R320 to R327, R428).
-/
namespace Sys2Proof.Machine

/-! Front ends, contexts and cores. -/

/-- A front end's state. -/
def State.fe (s : State) (p : Nat) : Fe := (SMap.look s.fes p).getD {}
/-- A front end changed. -/
def State.updFe (s : State) (p : Nat) (f : Fe → Fe) : State := { s with fes := SMap.ins s.fes p (f (s.fe p)) }

/-- A context exists (R318). -/
def State.live (s : State) (ck : Nat) : Bool := ((SMap.look s.ctxs ck).map Ctx.live).getD false

/-- A context runs: it holds its front end's slice, and no hard halt of it has begun (R319, R365). -/
def State.running (s : State) (ck : Nat) : Bool :=
  (s.fe (ck / 8)).holder == some (ck % 8) &&
    (match SMap.look s.ctxs ck with
     | some c => c.live && c.halting.isNone
     | none => false)

/-- A context's teams may start (R263, R333, R365): no soft drain has begun, and its interface is not in ERROR. -/
def State.mayStart (s : State) (ck : Nat) : Bool :=
  s.running ck && !s.vfClear && (s.fe (ck / 8)).tdi != 3 && (((SMap.look s.ctxs ck).map (fun c => c.drainAt.isNone)).getD false)

/-- A front end that a resize keeps from launching (R348). -/
def State.quiesced (s : State) (p : Nat) : Bool :=
  match s.rsz with
  | some r => decide (2 ≤ r.state) && r.ents.any (fun e => e.part == p)
  | none => false

/-- A logical cluster is served by a powered physical cluster that has ramped up (R3, R373, R408). -/
def State.clusterUp (s : State) (c : Nat) : Bool :=
  let k := s.physAt (s.physOf c)
  !(s.cluster c).dark && k.on && k.state == 0 && k.inrush == 0 && !s.calls.any (fun q => q.begun && q.clus == c)

/-- A warp holds nothing more (R109): its threads have exited, its counters are at zero, no token and no engine-owned register is left. -/
def State.warpFree (s : State) (wk : Nat) : Bool :=
  (s.threads.all (fun e => e.2.wk != wk || e.2.stat == .exited))
    && ((SMap.look s.warps wk).map (fun w => w.entries.isEmpty)).getD true
    && !s.sbusy.any (fun e => e.1 / 64 == wk) && !s.eng.any (fun e => e.2.wk == wk)

/-- The warps of a placed team that are not freed yet (R109): their slots and registers are not there for another team. -/
def State.warpsHeld (s : State) (tk : Nat) (g : Grid) : Nat := ((List.range g.warps).filter (fun w => !s.warpFree (warpKey tk w))).length

/-- A core can hold one more team of a grid, and its parameter slot (R109, R208, R255, R256, R307). -/
def State.fits (s : State) (g : Grid) (c : Nat) : Bool :=
  let on := s.gridsOn c
  let held := (s.teamsOn c).filterMap (fun e => (SMap.look s.grids e.2.grid).map (fun h => (s.warpsHeld e.1 h, h.nv)))
  s.clusterUp (c / 4) && (s.coreOf c).seg.isNone && on.all (fun h => h.ctx == g.ctx)
    && decide ((held.map Prod.fst).sum + g.warps ≤ 64)
    && decide ((held.map (fun h => h.1 * h.2)).sum + g.warps * g.nv ≤ 2048)
    && decide ((on.map Grid.scratch).sum + s.heldScratch c + g.scratch ≤ 229376) && s.slotRoom g c

/-! What refuses a launch. -/

/-- What a launch asks for (R204, R321, R327). -/
structure Req where
  ctx    : Nat
  index  : Nat               -- the image's index
  im     : Image
  entry  : Nat
  teams  : Nat
  ranges : List ORange
  stack  : Option ORange     -- the stack range, if one is declared
  cor    : Bool := false
  arep   : Bool := false
  qdepth : Nat := 0
  lslots : Nat := 0
  bmap   : Option W64 := none
  quiet  : Bool := false
  param  : W64
  depth  : Nat := 1
  parent : Option Nat := none
  token  : Option (Nat × Nat) := none
  node   : Option (Nat × Nat) := none

/-- Bytes of stack per thread (R86). -/
def stackZ (len teams warps : Nat) : Nat := len / (16 * (max (teams * (32 * warps)) 1)) * 16

/-- A declared range reaches into the parameter, code or save window (R27, R355, R428). -/
def ORange.inWindow (r : ORange) : Bool := decide (0xFD0000000000 < r.va + r.len)

/-- The conditions on a launch's stack (R86). -/
def stackOk (r : ORange) (teams warps : Nat) : Bool :=
  decide (r.acc = 3 ∧ r.va % 16 = 0 ∧ stackZ r.len teams warps ≠ 0)

/-- Two segments share a byte. -/
def segsMeet (a b : Nat × Nat × Nat × Option Nat) : Bool := decide (a.2.1 < b.2.1 + b.2.2.1 ∧ b.2.1 < a.2.1 + a.2.2.1)

/-- Every pair of a list passes a test. -/
def allPairs {α : Type} (f : α → α → Bool) : List α → Bool
  | [] => true
  | x :: xs => xs.all (f x) && allPairs f xs

/-- The segment table of a travelling entry is sound (R281). -/
def segsOk (e : Entry) : Bool :=
  !e.segs.isEmpty && e.segs.all (fun g => decide (g.1 ≤ 1023 ∧ g.2.2.1 ≤ 65536))
    && allPairs (fun a b => a.1 != b.1 && !segsMeet a b) e.segs
    && e.segs.any (fun g => decide (g.2.1 ≤ e.code ∧ e.code < g.2.1 + g.2.2.1))

/-- Teams of an entry that one empty core holds (R255, R256). -/
def perCore (e : Entry) : Nat :=
  min (64 / max e.warps 1) (min (if e.warps * e.nv = 0 then 64 else 2048 / (e.warps * e.nv))
    (if e.scratch = 0 then 64 else 229376 / e.scratch))

/-- Teams of an entry that an emptied partition holds (R258, R259). -/
def State.capacity (s : State) (p : Nat) (e : Entry) : Nat :=
  let cs := s.partCores p
  let k := max e.cg 1
  if k = 1 then cs.length * perCore e else (cs.filter (fun c => c % 4 == 0)).length * perCore e * k

/-- LAUNCH_INVALID (R27, R86, R258, R281, R312, R321, R324, R428). -/
def State.launchInvalid (s : State) (q : Req) (e : Entry) : Bool :=
  decide (q.teams = 0) || decide (q.teams % max e.cg 1 ≠ 0)
    || q.ranges.any (fun r => decide (r.acc ≠ 0) && r.inWindow)
    || decide (1 < (q.ranges.filter ORange.stack).length)
    || (match q.stack with | some r => !stackOk r q.teams e.warps | none => false)
    || !(decide (q.qdepth = 0) || (decide (4 ≤ q.qdepth ∧ q.qdepth ≤ 64) && decide (q.qdepth % 4 = 0)))
    || decide (63 < q.lslots)
    || (e.travel && !segsOk e)
    || (match q.bmap with | some a => !s.rangeMapped q.ctx a.toNat ((q.teams + 7) / 8) true | none => false)

/-- LAUNCH_TOO_LARGE (R202, R255, R259, R281; the co-resident flag of a travelling grid says nothing): `rings` says that the overflow rings can be allocated. -/
def State.launchTooLarge (s : State) (q : Req) (e : Entry) (rings : Bool) : Bool :=
  decide (64 < e.warps ∨ 2048 < e.warps * e.nv ∨ 229376 < e.scratch)
    || (q.cor && !e.travel && decide (s.capacity (q.ctx / 8) e < q.teams))
    || (e.travel && (decide ((s.partCores (q.ctx / 8)).length < e.segs.length) || !rings))

/-- A launch's status: 0, 1 LAUNCH_TOO_LARGE, 2 LAUNCH_INVALID, 3 LAUNCH_DET_MISMATCH (R23, R326). Where several hold, LAUNCH_INVALID
comes first and LAUNCH_TOO_LARGE last (DESIGN CHOICE, assumption 73). -/
def State.launchStatus (s : State) (q : Req) (rings : Bool) : Nat :=
  match q.im.entries[q.entry]? with
  | none => 2
  | some e =>
    if s.launchInvalid q e then 2
    else if e.det && !((SMap.look s.ctxs q.ctx).map Ctx.det).getD false then 3
    else if s.launchTooLarge q e rings then 1
    else 0

/-! Accepting a grid. -/

/-- The segment map as a launch builds it, nothing pinned and no ring reserved yet (R283). -/
def segMap (index : Nat) (e : Entry) : SMap Seg :=
  e.segs.foldl (fun m g => SMap.ins m g.1
    { base := imageBase index + BitVec.ofNat 64 g.2.1, len := g.2.2.1,
      handler := match g.2.2.2 with | some h => imageBase index + BitVec.ofNat 64 h | none => 0,
      cores := [], ringBase := 0, ring := [], admitted := 0, qfull := 0, spills := 0 }) []

/-- A grid as it is accepted (R203, R273, R321). -/
def gridOf (q : Req) (e : Entry) (num : W32) : Grid :=
  { ctx := q.ctx, num := num, depth := q.depth, code := q.im.code, entryPc := imageBase q.index + BitVec.ofNat 64 e.code
    warps := e.warps, nv := e.nv, ns := e.ns, scratch := e.scratch, cg := e.cg, nteam := q.teams, travel := e.travel, det := e.det
    cores := q.cor && !e.travel, param := q.param, dataSec := q.im.dva, constSec := q.im.cva
    stack := BitVec.ofNat 64 ((q.stack.map ORange.va).getD 0)
    stackZ := BitVec.ofNat 64 (match q.stack with | some r => stackZ r.len q.teams e.warps | none => 0)
    parent := q.parent, token := q.token, node := q.node, segs := segMap q.index e
    qdepth := if q.qdepth = 0 then 64 else q.qdepth, lslots := if q.lslots = 0 then 63 else q.lslots
    ranges := q.ranges, bmap := q.bmap, quiet := q.quiet, image := q.index, autorep := q.arep, teamsLeft := q.teams, status := 0, done := false }

/-- A team that is not placed. -/
def Team.waiting (gk idx : Nat) : Team :=
  { grid := gk, idx := idx, core := 0, at_ := .unplaced, cyc := 0, cycAt := 0, run := false, first := none, flag := false, ovf := [], ovfBy := none
    posted := [], children := 0, fjoined := [], passed := none, prot := false, status := 0 }

/-- A grid accepted: its number, its teams in order, where its rings lie, its ranges walked (R103, R257, R283, R356; assumption 132). -/
def State.acceptGrid (s : State) (q : Req) (e : Entry) : State × Nat :=
  let gk := SMap.fresh s.grids
  let tk := SMap.fresh s.teams
  let num := ((SMap.look s.ctxs q.ctx).map Ctx.gridNo).getD 0
  let s1 := (s.noteRanges q.ctx q.ranges).updCtx q.ctx (fun c => { c with gridNo := c.gridNo + 1 })
  let g := { gridOf q e num with exts := s.rangesOf q.ctx q.ranges }
  ({ s1 with grids := SMap.ins s1.grids gk { g with segs := SMap.mapV (fun k (sg : Seg) => { sg with ringBase := Config.ringBase gk k }) g.segs }
             teams := s1.teams ++ (List.range q.teams).map (fun i => (tk + i, Team.waiting gk i)) }, gk)

/-! Parameter slots (R428). -/

/-- A parameter block copied into a slot; the rest of the slot reads zero. A block longer than the slot runs past it (DESIGN CHOICE,
assumption 135). -/
def State.fillSlot (s : State) (ck slot : Nat) (bs : List Byte) : State :=
  let w := 2 ^ 60 + slotPhys ck slot / 4
  let s1 := { s with slots := SMap.ins s.slots (ck * 2 ^ 28 + slot) (), bad := SMap.keep (fun k _ => !decide (w ≤ k ∧ k < w + 1024)) s.bad }
  s1.putMem (slotPhys ck slot) (bs ++ List.replicate (4096 - bs.length) 0)

/-- A slot is occupied no more. -/
def State.dropSlot (s : State) (ck slot : Nat) : State := { s with slots := SMap.del s.slots (ck * 2 ^ 28 + slot) }

/-- The slot that an address of the parameter window names. -/
def slotOf (va : W64) : Nat := (va.toNat - 0xFD0000000000) / 4096

/-! The end of a node, of a run, of a grid (R323, R326, R327). -/

/-- NODE_DONE or RUN_DONE (R326). -/
def State.doneRecord (s : State) (ty ck node graph : Nat) (seq : W32) (status : Nat) (hdr : W64) : State :=
  s.post (ck / 8) ty [(8, 2, node), (10, 1, graph), (11, 1, ck % 8), (12, 4, seq.toNat), (16, 4, status), (20, 8, hdr.toNat)]

/-- A node's state in its run. -/
def Run.nodeAt (r : Run) (i : Nat) : NodeSt := (r.nodes[i]?).getD .waiting

/-- One node ends (R321, R323, R326, R428): its record, unless it is QUIET with status 0, and its slot. -/
def State.endNode (s : State) (ck i status : Nat) (hdr : W64) : State :=
  match SMap.look s.runs ck with
  | none => s
  | some r =>
    let quiet := ((r.graph.nodes[i]?).map GNode.quiet).getD false
    let s1 : State := { s with runs := SMap.ins s.runs ck { r with nodes := r.nodes.set i (.ended status) } }
    let s2 := match r.slots[i]? with | some k => s1.dropSlot ck k | none => s1
    if quiet && status == 0 then s2 else s2.doneRecord 0x0001 ck i r.trig.graph r.trig.seq status hdr

/-- Waiting nodes with a predecessor that ended with a nonzero status are skipped, ascending, until none is left (R323). -/
def State.skipNodes (s : State) (ck : Nat) : Nat → State
  | 0 => s
  | n + 1 =>
    match SMap.look s.runs ck with
    | none => s
    | some r =>
      match (List.range r.nodes.length).find? (fun i => r.nodeAt i == .waiting &&
          (predsOf r.graph.nodes i).any (fun p => match r.nodeAt p.1 with | .ended k => decide (k ≠ 0) | _ => false)) with
      | some i => (s.endNode ck i 9 0).skipNodes ck n
      | none => s

/-- The status of a run whose nodes have all ended: 5 or 6 where they hold one for its cause, else the first nonzero (R323). -/
def Run.status (r : Run) : Nat :=
  let ks := r.nodes.map (fun n => match n with | .ended k => k | _ => 0)
  if ks.contains 5 then 5 else if ks.contains 6 then 6 else (ks.find? (· ≠ 0)).getD 0

/-- A run whose every node has ended is over (R323). -/
def State.endRun (s : State) (ck : Nat) : State :=
  match SMap.look s.runs ck with
  | none => s
  | some r =>
    if r.nodes.all (fun n => match n with | .ended _ => true | _ => false) then
      { s with runs := SMap.del s.runs ck }.doneRecord 0x0002 ck 0xFFFF r.trig.graph r.trig.seq r.status 0
    else s

/-- A node ends, with what follows from it (R323). -/
def State.nodeEnds (s : State) (ck i status : Nat) (hdr : W64) : State :=
  let n := ((SMap.look s.runs ck).map (fun r => r.nodes.length)).getD 0
  ((s.endNode ck i status hdr).skipNodes ck n).endRun ck

/-- The completion word of a child grid (R205). -/
def childWord (status : Nat) : W64 := BitVec.ofNat 64 (0x8000 + status)

/-- A child's completion reaches its parent (R205, R206). -/
def State.tellParent (s : State) (g : Grid) (status : Nat) : State :=
  let s1 := match g.token with
    | some (wk, tok) => s.writeToken wk (BitVec.ofNat 8 tok) (childWord status) 0
    | none => s
  match g.parent with
  | some tk => s1.updTeam tk (fun t => { t with children := t.children - 1 })
  | none => s1

/-- A travelling grid's cores hold segments no more (R283, R295). -/
def State.unpin (s : State) (gk : Nat) : State :=
  { s with cores := SMap.mapV (fun _ (c : CoreSt) => if (c.seg.map Prod.fst) == some gk then
      { c with seg := none, queue := [], ovf := [], owed := [], arrivals := [] } else c) s.cores }

/-- A grid has ended with a status: its slot is free, and its parent, node or front end is told (R205, R207, R323, R327, R428). -/
def State.gridEnds (s : State) (gk status : Nat) (hdr : W64) : State :=
  match SMap.look s.grids gk with
  | none => s
  | some g =>
    if g.done then s
    else
      let s1 := (s.updGrid gk (fun g => { g with done := true, status := status })).unpin gk
      match g.node, g.parent with
      | some (ck, i), _ => s1.nodeEnds ck i status hdr
      | none, some _ => (s1.dropSlot g.ctx (slotOf g.param)).tellParent g status
      | none, none =>
        let p := g.ctx / 8
        ((s1.dropSlot g.ctx (slotOf g.param)).updFe p (fun f => { f with resGrid := none })).doneRecord 0x0001 g.ctx 0xFFFF 0 0 status hdr

/-! FORK_ACCEPT (R203 to R205). -/

/-- A FORK is answered: its token receives the word, and a refused child counts no more. -/
def State.refuseFork (s : State) (r : ForkReq) (tk status : Nat) : State :=
  (s.writeToken r.wk r.tok (childWord status) 0).updTeam tk (fun t => { t with children := t.children - 1 })

/-- The child record (R204), and what is zero in it. -/
def childOk (b : List Byte) : Bool := decide (blkField b 16 2 < 2 ∧ blkField b 4 4 ≠ 0) && zerosAt b 18 6 && zerosAt b 40 24

/-- What a child record asks for: the parent's ranges, its own stack (R203, R204). -/
def childReq (g : Grid) (im : Image) (tk : Nat) (r : ForkReq) (b : List Byte) (param : W64) : Req :=
  { ctx := g.ctx, index := g.image, im := im, entry := blkField b 0 4, teams := blkField b 4 4
    ranges := g.ranges.map (fun x => { x with stack := false })
    stack := if blkField b 32 8 = 0 then none
             else some { va := blkField b 24 8, len := blkField b 32 8, acc := 3, reuse := 0, stack := true }
    cor := decide (blkField b 16 2 = 1), param := param, depth := g.depth + 1, parent := some tk, token := some (r.wk, r.tok.toNat) }

/-- The image a grid runs, as its graph or front end loaded it. -/
def State.imageOfGrid (s : State) (g : Grid) : Option Image :=
  let known := (s.graphs.flatMap (fun e => e.2.images)) ++ (s.runs.flatMap (fun e => e.2.graph.images)) ++ (s.fe (g.ctx / 8)).resIm.toList
  known.find? (fun im => im.code == g.code)

/-- What a FORK reads of its parent's memory: none in the save window, which holds nothing for it (R355). -/
def State.childRead (s : State) (ck a n : Nat) : Option (List Byte) :=
  if n ≠ 0 ∧ (inSaveWindow a ∨ inSaveWindow (a + n - 1)) then none else s.readVirt ck a n

/-- A child's stack range: every page mapped readable and writable, none in a window (R204, R355, R428). -/
def State.childStackOk (s : State) (ck : Nat) (x : ORange) : Bool :=
  !x.inWindow && s.rangeMapped ck x.va x.len true && s.rangeMapped ck x.va x.len false

/-- FORK_ACCEPT (R203 to R205, R428): the record and the parameter block are read, and the child is accepted or refused; a page on HOLD makes it
wait (R357). `room` says whether scheduler memory has room, `rings` whether a travelling child's rings can be allocated. -/
def State.forkAccept (s : State) (id : Nat) (room rings : Bool) : State :=
  match SMap.look s.forks id with
  | none => s
  | some r =>
    let tk := ((SMap.look s.warps r.wk).map Warp.team).getD 0
    match s.gridOfTeam tk with
    | none => s
    | some g =>
      if !s.running g.ctx || s.virtHeld g.ctx r.addr.toNat 64 then s
      else
        let s1 := { s with forks := SMap.del s.forks id }
        match s.childRead g.ctx r.addr.toNat 64, s.imageOfGrid g with
        | some b, some im =>
          (match im.entries[blkField b 0 4]? with
           | none => s1.refuseFork r tk 3
           | some e =>
             let slot := s.freeSlot g.ctx
             let q := childReq g im tk r b (BitVec.ofNat 64 (slotVa slot))
             let bad := !childOk b || q.stack.any (fun x => !s.childStackOk g.ctx x)
             if s.virtHeld g.ctx (blkField b 8 8) e.params || q.stack.any (fun x => s.virtHeld g.ctx x.va x.len) then s else
             match (if bad then none else s.childRead g.ctx (blkField b 8 8) e.params) with
             | none => s1.refuseFork r tk 3
             | some ps =>
               match s.launchStatus q rings with
               | 0 => if room then ((s1.fillSlot g.ctx slot ps).acceptGrid q e).1 else s1.refuseFork r tk 2
               | 1 => s1.refuseFork r tk 1
               | _ => s1.refuseFork r tk 3)
        | _, _ => s1.refuseFork r tk 3

end Sys2Proof.Machine
end

