-- ==== Sys2Proof/Machine/Place.lean ====
section
/-!
DEFINITION. Placing teams and moving them: what a core is loaded with, the dispatcher's order, launch parcels, the work a stopped warp
has outstanding and its re-injection, resumption after FJOIN, and how a team retires
(R193, R206, R207, R230, R255 to R263, R271, R273, R281 to R284, R294, R307, R356).
-/
namespace Sys2Proof.Machine

/-! What a core is loaded with. -/

/-- A core's deque goes with its context when another takes the core (R208, R263). -/
def State.leaveCore (s : State) (core : Nat) : State :=
  let c := s.coreOf core
  match c.ctx with
  | some ck =>
    (s.updCtx ck (fun x => { x with deques := if c.deque.isEmpty then x.deques else SMap.ins x.deques core c.deque })).updCore core
      (fun c => { c with ctx := none, deque := [], exts := [] })
  | none => s

/-- A team of a context comes onto a core: the whole L1 is invalidated, and the context's deque of that core is there (R208, R271). -/
def State.enterCore (s : State) (core ck : Nat) : State :=
  let s1 := { s with l1 := SMap.keep (fun k _ => decide (k / 2 ^ 45 ≠ core)) s.l1 }
  if (s.coreOf core).ctx = some ck then s1
  else
    let dq := ((SMap.look s1.ctxs ck).bind (fun x => SMap.look x.deques core)).getD []
    ((s1.leaveCore core).updCore core (fun c => { c with ctx := some ck, deque := dq, exts := [] })).updCtx ck
      (fun x => { x with deques := SMap.del x.deques core })

/-- A core receives the extents of a grid's ranges, in ascending address while it has room (R356), and the grid's slot (R428). -/
def State.loadExtents (s : State) (core : Nat) (g : Grid) (es : List Extent) : State :=
  (es.foldl (fun (s : State) e =>
    let have_ := (s.coreOf core).exts
    if 64 ≤ have_.length || have_.any (fun x => !x.stale && x == e) then s
    else s.updCore core (fun c => { c with exts := c.exts ++ [e] })) s).installSlot core g.ctx g.param 0

/-! Segments and their replicas (R218, R269, R283, R289 to R291). -/

/-- What an ended grid left on segment cores is gone: scratchpads and warp slots (R269, R284). -/
def State.clearSlots (s : State) (on : Nat → Bool) : State :=
  { s with scr := SMap.keep (fun k _ => !(decide (k / 2 ^ 18 % 2 = 1) && on (k / 2 ^ 18 / 2))) s.scr
           scrBad := SMap.keep (fun k _ => !(decide (k / 2 ^ 16 % 2 = 1) && on (k / 2 ^ 16 / 2))) s.scrBad
           warps := SMap.keep (fun k _ => !(decide (k % 2 = 1) && on (k / 2 / 64))) s.warps }

/-- When the current millisecond of %wall began (R265, R289). -/
def State.msStart (s : State) : Nat := s.now - (s.now - s.resetAt) % 84000000

/-- A segment pinned on a core (R218, R269, R271, R273, R290, R307): the core is its context's, its L1 empty, its scratchpad zero, its
extents those of the grid's ranges and parameter slot. -/
def State.pinSeg (s : State) (gk seg core : Nat) (g : Grid) : State :=
  let s1 := ((s.enterCore core g.ctx).clearSlots (fun c => c == core)).updSeg gk seg
    (fun sg => { sg with cores := sg.cores ++ [core], hotAt := if sg.cores.isEmpty then s.msStart else sg.hotAt })
  (s1.updCore core (fun c => { c with seg := some (gk, seg), queue := [], ovf := [], owed := [] })).loadExtents core g g.exts

/-- A replication decided: its status, and the core (R218, R291): the grid runs, so each of its segments is pinned. -/
def State.replicate (s : State) (ctx : Nat) (grid : W32) (seg : Nat) (pref : Option Nat) : State × Nat × Nat :=
  match SMap.find (fun _ g => g.ctx == ctx && g.num == grid && g.travel && !g.done && g.segs.all (fun e => !e.2.cores.isEmpty)) s.grids with
  | none => (s, 3, 0)
  | some (gk, g) =>
    match SMap.look g.segs seg with
    | none => (s, 3, 0)
    | some sg =>
      if 8 ≤ sg.cores.length then (s, 1, 0)
      else match s.replicaCore g (ctx / 8) pref with
        | none => (s, 2, 0)
        | some c => (s.pinSeg gk seg c g, 0, c)

/-- A resize moves segments of a front end's partition: no replica takes a core meanwhile (R295, R348). -/
def State.replicasHeld (s : State) (ctx : Nat) : Bool := s.quiesced (ctx / 8)

/-- SEGREP_COMPLETE (R218, R267, R295): the replica is pinned and mapped, or refused, and the token receives its word. -/
def State.segrepComplete (s : State) (id : Nat) : State :=
  match SMap.look s.segreqs id with
  | none => s
  | some r =>
    if s.replicasHeld r.ctx then s else
    let d := s.replicate r.ctx r.grid r.seg r.pref
    let det := ((SMap.look s.ctxs r.ctx).map Ctx.det).getD false
    let core := if det then 0 else d.2.2
    let s1 := { d.1 with segreqs := SMap.del d.1.segreqs id }
    match r.tok with
    | some (wk, tok) =>
      { s1.sset wk tok.toNat (BitVec.ofNat 64 (0x8000 + d.2.1 + 2 ^ 48 * core)) with sbusy := SMap.del s1.sbusy (skey wk tok.toNat) }
    | none => s1

/-- SEGHOT (R289, R290): the end of a segment's interval of 1 ms of %wall; a hot one is reported and, with automatic replication, replicated. -/
def State.seghot (s : State) (gk seg : Nat) : State :=
  match SMap.look s.grids gk with
  | none => s
  | some g =>
    match SMap.look g.segs seg with
    | none => s
    | some sg =>
      let clear := fun (s : State) => s.updSeg gk seg (fun sg => { sg with admitted := 0, qfull := 0, spills := 0, hotAt := s.msStart })
      if sg.cores.isEmpty ∨ g.done ∨ s.now < sg.hotAt + 84000000 then s
      else if sg.qfull < 16 ∧ sg.spills < 1 then clear s
      else
        let d := if g.autorep && s.running g.ctx then (if s.replicasHeld g.ctx then (s, 2, 0) else s.replicate g.ctx g.num seg none) else (s, 4, 0)
        let act := match d.2.1 with | 0 => 1 | 1 => 2 | 2 => 3 | _ => 0
        let reps := (((SMap.look d.1.grids gk).bind (fun g => SMap.look g.segs seg)).map (fun x => x.cores.length)).getD 0
        (clear d.1).post (g.ctx / 8) 0x0104
          [(8, 4, g.num.toNat), (12, 2, seg), (14, 1, reps), (15, 1, act), (16, 4, sg.admitted), (20, 4, sg.qfull), (24, 4, sg.spills),
           (28, 2, d.2.2)]

/-- The intervals of %wall that passing time has ended, each at its end (R289). -/
def State.settleHot (s : State) : State :=
  s.grids.foldl (fun s g => g.2.segs.foldl (fun (s : State) e =>
    if e.2.cores.isEmpty || g.2.done || decide (s.now < e.2.hotAt + 84000000) then s
    else
      let r := State.seghot { s with now := e.2.hotAt + 84000000 } g.1 e.1
      ({ r with now := s.now } : State).updSeg g.1 e.1 (fun sg => { sg with hotAt := s.msStart })) s) s

/-! A team's first placement (R86, R255, R256, R307). -/

/-- A thread that has not run. -/
def Thread.new (wk lane : Nat) (pc : W64) (st : TStat) (seg : Nat) : Thread :=
  { wk := wk, lane := lane, pc := pc, stat := st, since := 0, inTable := false, handler := false, rpc := 0, rdv := none, rdvDone := false
    sleepEnd := none, sleepAt := 0, h61 := 0, h62 := 0, seg := seg, departs := 0, wait := .none, msgOvf := false, barAt := [], parkPc := 0
    left := false, came := none, frec := none }

/-- The initial stack pointer of a thread (R86). -/
def Grid.stackPtr (g : Grid) (idx tid : Nat) : W64 :=
  if g.stackZ = 0 then 0 else g.stack + g.stackZ * BitVec.ofNat 64 (idx * (32 * g.warps) + tid + 1)

/-- One thread of an ordinary team starts at the entry (R307). -/
def State.startThread (s : State) (g : Grid) (tk idx tid : Nat) : State :=
  let th := thKey tk tid
  let s1 := { s with threads := SMap.ins s.threads th (Thread.new (warpKey tk (tid / 32)) (tid % 32) g.entryPc .ready 0) }
  let s2 := if 30 ≤ g.nv then s1.vsetp th 28 (g.stackPtr idx tid) else s1
  s2.placeReady th

/-- One warp of an ordinary team as it starts (R307). -/
def State.startWarp (s : State) (g : Grid) (tk w : Nat) : State :=
  let wk := warpKey tk w
  let base := (s.codes.find? (fun e => e.1 == g.code)).map (fun e => e.2.base)
  (((({ s with warps := SMap.ins s.warps wk (Warp.fresh tk w) }.sset wk 0 g.param).sset wk 1 g.dataSec).sset wk 2 g.constSec).sset wk 3
    (base.getD 0))

/-- A team is placed on a core, every thread ready at the entry (R255, R256, R307). -/
def State.startTeam (s : State) (tk core : Nat) : State :=
  match SMap.look s.teams tk, s.gridOfTeam tk with
  | some t, some g =>
    let s1 := (s.enterCore core g.ctx).updTeam tk (fun t => { t with core := core, at_ := .placed, passed := none, prot := false })
    let s2 := s1.loadExtents core g g.exts
    let s3 := (List.range g.warps).foldl (fun s w => s.startWarp g tk w) (s2.goCycles tk)
    (List.range (32 * g.warps)).foldl (fun s tid => s.startThread g tk t.idx tid) s3
  | _, _ => s

/-! The dispatcher (R257 to R259). -/

/-- What the dispatcher places together: a cluster group, or a whole grid. -/
structure PUnit where
  gk     : Nat
  groups : List (List Nat)
  whole  : Bool

/-- A grid's unplaced teams by cluster group, ascending (R258). -/
def State.groupsOf (s : State) (gk : Nat) (g : Grid) : List (List Nat) :=
  let k := max g.cg 1
  let ts := s.teams.filter (fun e => e.2.grid == gk && e.2.at_ == .unplaced)
  (List.range ((g.nteam + k - 1) / k)).filterMap (fun i =>
    match (ts.filter (fun e => e.2.idx / k == i)).map Prod.fst with
    | [] => none
    | l => some l)

/-- A context's units in the order the dispatcher looks at them (R257). -/
def State.units (s : State) (ck : Nat) : List PUnit :=
  s.grids.flatMap (fun e =>
    if e.2.ctx ≠ ck ∨ e.2.done then []
    else match s.groupsOf e.1 e.2 with
      | [] => []
      | gs => if e.2.cores || e.2.travel then [{ gk := e.1, groups := gs, whole := true }]
              else gs.map (fun l => { gk := e.1, groups := [l], whole := false }))

/-- One cluster group placed on cores that a test allows (R258, R407). -/
def State.placeGroup (s : State) (g : Grid) (tks : List Nat) (allow : Nat → Bool) : Option State :=
  let cs := s.partCores (g.ctx / 8)
  match max g.cg 1, tks with
  | 1, tk :: _ => (s.planish (cs.filter (fun c => allow c && s.fits g c))).map (fun c => s.startTeam tk c)
  | k, _ =>
    let ok := cs.filter (fun c => c % 4 == 0 && (List.range k).all (fun r => allow (c + r) && s.fits g (c + r)))
    (s.planish ok).map (fun c => tks.foldl (fun s tk =>
      s.startTeam tk (c + (((SMap.look s.teams tk).map Team.idx).getD 0) % k)) s)

/-- A travelling grid's cores: one for each of its segments, none of which holds a team or a segment (R281, R283). -/
def State.pinAll (s : State) (gk : Nat) (g : Grid) (allow : Nat → Bool) : List Nat → Option State
  | [] => some s
  | seg :: segs =>
    match s.planish ((s.partCores (g.ctx / 8)).filter (fun c => allow c && s.clusterUp (c / 4) && (s.coreOf c).seg.isNone && !s.holdsTeam c && s.slotRoom g c)) with
    | some c => (s.pinSeg gk seg c g).pinAll gk g allow segs
    | none => none

/-- The segment that holds a travelling grid's entry. -/
def Grid.entrySeg (g : Grid) : Nat :=
  ((SMap.find (fun _ sg => decide (sg.base.toNat ≤ g.entryPc.toNat ∧ g.entryPc.toNat < sg.base.toNat + sg.len)) g.segs).map Prod.fst).getD 0

/-- A launch parcel's registers: the pairs that the lane registers cover (R284). -/
def Grid.launchRegs (g : Grid) (idx tid : Nat) : List (Nat × W32) :=
  let two := fun r (x : W64) => if r + 2 ≤ g.nv then [(r, lo32 x), (r + 1, hi32 x)] else []
  two 0 g.param ++ two 2 g.dataSec ++ two 4 g.constSec ++ two 28 (g.stackPtr idx tid)

/-- One launch parcel (R284): into the entry segment's queue, or at once into its ring. -/
def State.launchParcel (s : State) (gk tk idx tid : Nat) : State :=
  match SMap.look s.grids gk with
  | none => s
  | some g =>
    let seg := g.entrySeg
    match SMap.look g.segs seg with
    | none => s
    | some sg =>
      let core := (sg.cores.head?).getD 0
      let th := thKey tk tid
      let rs := g.launchRegs idx tid
      let p : Parcel := { th := th, pc := g.entryPc, mask := maskOf (rs.map Prod.fst), regs := rs.map Prod.snd, pred := 0, seg := seg,
                          dst := core, full := false, at_ := 0, wait := .none }
      let s1 := { s with threads := SMap.ins s.threads th (Thread.new (slotKey core 63) (tid % 32) g.entryPc .parcel seg) }
      if s1.queueOpen sg core then s1.updCore core (fun c => { c with queue := c.queue ++ [p] })
      else s1.ringPush gk seg p false

/-- A travelling grid is placed: its segments are pinned, and its launch parcels sent in ascending grid-wide index (R281, R283, R284). A
team's own core, whose cluster's cycles its %cycle counts, is that of the entry segment's first replica (DESIGN CHOICE, assumption 35). -/
def State.placeTravel (s : State) (gk : Nat) (g : Grid) (tks : List Nat) (allow : Nat → Bool) : Option State :=
  (s.pinAll gk g allow (SMap.keys g.segs)).map (fun s1 =>
    tks.foldl (fun s tk =>
      let idx := ((SMap.look s.teams tk).map Team.idx).getD 0
      (List.range (32 * g.warps)).foldl (fun s tid => s.launchParcel gk tk idx tid)
        ((s.updTeam tk (fun t => { t with at_ := .placed, passed := none, prot := false
                                          core := ((((SMap.look s.grids gk).bind (fun g => SMap.look g.segs g.entrySeg)).bind (fun sg => sg.cores.head?)).getD 0) })).goCycles tk)) s1)

/-- A unit placed whole, or not at all (R255, R259). -/
def State.placeUnit (s : State) (u : PUnit) (allow : Nat → Bool) : Option State :=
  match SMap.look s.grids u.gk with
  | none => none
  | some g =>
    if g.travel then s.placeTravel u.gk g u.groups.flatten allow
    else u.groups.foldl (fun r tks => r.bind (fun s => s.placeGroup g tks allow)) (some s)

/-- The cores that a unit passed over keeps from those after it (R257, R259): for a protected team every core it could use once that is
free, for a grid placed whole every core that holds no team. -/
def State.keeps (s : State) (u : PUnit) (c : Nat) : Bool :=
  let k := ((SMap.look s.grids u.gk).map (fun g => max g.cg 1)).getD 1
  (u.groups.flatten.any (fun tk => ((SMap.look s.teams tk).map Team.prot).getD false) && (k == 1 || decide (c % 4 < k)))
    || (u.whole && (k == 1 || decide (c % 4 < k)) && (s.teamsOn c).isEmpty && (s.coreOf c).seg.isNone)

/-- The first unit that fits is placed; those before it are passed over (R257). -/
def placeFirst (s0 : State) : List PUnit → (Nat → Bool) → State → State
  | [], _, s => s
  | u :: us, allow, s =>
    match s.placeUnit u allow with
    | some s1 => s1
    | none =>
      let s1 := u.groups.flatten.foldl (fun (s : State) tk => s.updTeam tk (fun t => { t with passed := t.passed <|> some s0.now })) s
      placeFirst s0 us (fun c => allow c && !s0.keeps u c) s1

/-! What a stopped warp has outstanding (R193, R206, R230, R365). -/

/-- An outstanding load or queued store, or a fence, as an entry of KIND 2; an atomic whose old values are in as one that is done. -/
def haltEntry (s : State) (o : MemOp) (done : Bool) : REntry :=
  let lane := fun (l : LaneAcc) =>
    ({ addr := l.addr, data := if done then BitVec.ofNat 128 (ofLeBytes (l.got1.getD [])) else capture l o.kind,
       stat := if done then 0x100 else 0 } : RLane)
  -- a fragment keeps its panel's address, and an FST the words it captured (R78, R193, R365)
  let panel := fun (l : Nat) => (l, ({ addr := (o.lanes.head?.map LaneAcc.addr).getD 0, data := 0, stat := 0 } : RLane))
  let ls := if o.frag.isSome then (List.range 32).map panel else o.lanes.map (fun l => (laneOfTh l.th, lane l))
  { mkEntry 2 0 o.w (s.genOf o.wk) o.pc ls with
    halt := true
    mask := if o.frag.isSome then 0xFFFFFFFF else o.cover
    ths := if o.ths.isEmpty then (o.lanes.map LaneAcc.th).eraseDups else o.ths
    words := if o.frag.isSome ∧ o.kind = .store then o.lanes.map (fun l => (l.th, l.addr, l.data)) else [] }

/-- The operation is taken out of the machine: its share of its counter and its registers are given up (R78). -/
def State.takeOp (s : State) (id : Nat) (o : MemOp) : State :=
  let o1 := if o.frag.isSome then { o with regs := fragRegs (o.frag.getD 0) } else o
  let s1 := s.unbusy o1 (if o.frag.isSome then warpThs o.wk else o.lanes.map LaneAcc.th)
  let s2 := s1.answer o.wk id 0xFFFFFFFF
  { s2 with ops := SMap.del s2.ops id }

/-- A kind of operation that is re-performed as a replay entry. -/
def MemOp.saved (o : MemOp) : Bool :=
  o.kind == .load || o.kind == .store || o.kind == .fence
    || ((o.kind == .atomic || o.kind == .cas) && o.ret && !o.lanes.isEmpty && o.lanes.all (fun l => l.got1.isSome && l.flt == 0))

/-- A stopped warp's operations become replay entries with HALT set, in order (R365); a prefetch and an L1 invalidation are done. -/
def State.saveOps (s : State) (wk : Nat) : State :=
  (s.ops.filter (fun e => e.2.wk == wk)).foldl (fun s e =>
    let o := e.2
    if o.kind == .pref || o.kind == .linv then s.takeOp e.1 o
    else if o.saved then ((s.takeOp e.1 o).pushEntry wk (haltEntry s o (o.kind == .atomic || o.kind == .cas))).1
    else s) s

/-- An operation that a halt takes out of its engine's table: an MMA not begun, a copy that is not to a peer (R193). -/
def EngOp.saved (o : EngOp) : Bool := o.kind != 8 && !(o.kind == 2 && o.begun)

/-- A stopped warp's engine operations: those not begun and copies leave the cluster's tables and stand as entries of KIND 4 (R193). -/
def State.saveEng (s : State) (wk : Nat) : State :=
  (s.eng.filter (fun e => e.2.wk == wk && e.2.saved && decide (e.2.core < 4096))).foldl (fun s e =>
    let o := e.2
    let r : REntry := { kind := 4, trap := 0, w := 6, gen := s.genOf wk, drop := false, halt := true, rtr := 0, tok := o.tok.toNat,
                        idx := o.kblk, mask := maskOf [laneOfTh o.th], elems := 0, waits := 0, pc := o.pc, aux := 0, lanes := packLanes o.blk, ths := [o.th] }
    let s1 : State := { s with
      eng := SMap.ins s.eng e.1 { o with core := 4096 }
      clusters := SMap.upd s.clusters (o.core / 4) (fun c => { c with locks := c.locks.filter (fun l => l.op ≠ e.1) }) }
    (s1.pushEntry wk r).1) s

/-- Groups stopped at an instruction they wait to issue: an entry of KIND 3 for each warp (R97, R227); members leave their rendezvous. -/
def State.saveWaiting (s : State) (wk : Nat) : State :=
  s.groups.foldl (fun s e =>
    let mine := e.2.threads.filter (fun th => s.wkOf th == wk)
    if e.2.stall == .none || mine.isEmpty then s
    else
      let r : REntry := { mkEntry 3 0 6 (s.genOf wk) e.2.pc (mine.map (fun th => (laneOfTh th, { addr := 0, data := 0, stat := 0 }))) with halt := true, ths := mine }
      let s1 := (s.pushEntry wk r).1
      let joined := mine.filter (fun th => ((SMap.look s.threads th).bind Thread.rdv).isSome)
      joined.foldl (fun s th => s.leaveRdv th) s1) s

/-- Instances without members are gone, with their counter entries (R97). -/
def State.sweepRdvs (s : State) : State :=
  (s.rdvs.filter (fun e => e.2.members.isEmpty)).foldl (fun s e => { (s.answer e.2.wk e.1 0xFFFFFFFF) with rdvs := SMap.del s.rdvs e.1 }) s

/-- The warps that hold threads of a team, and those whose operations act for such threads. -/
def State.teamWarps (s : State) (tk : Nat) : List Nat :=
  (s.warpsOf ((s.threads.filter (fun e => teamOfTh e.1 == tk)).map Prod.fst)
    ++ (s.ops.filter (fun e => e.2.lanes.any (fun l => teamOfTh l.th == tk))).map (fun e => e.2.wk)).eraseDups

/-- A stopped warp's outstanding work becomes replay entries, oldest first: operations, engine operations, waiting instructions. -/
def State.saveWarp (s : State) (wk : Nat) : State := (((s.saveOps wk).saveEng wk).saveWaiting wk).sweepRdvs

/-- Ready threads of warps leave their core's bucket table and arrival list. -/
def State.leaveTable (s : State) (core : Nat) (ths : List Nat) : State :=
  (ths.foldl (fun s th => s.updThread th (fun t => { t with inTable := false })) s).updCore core
    (fun c => { c with arrivals := c.arrivals.filter (fun th => !ths.contains th) })

/-! Re-injection (R230). -/

/-- How far a saved access gets: performed again, or waiting: for room among the core's extents, or for a page that stands on HOLD. -/
inductive Redone where
  | done (s : State) (traps : List TrapReq)
  | wait (s : State) (held : Option W64)
  deriving DecidableEq, Repr

/-- The extents that accesses go through are in a core's table again (R274, R275, R357): the state, and what keeps one of them out. -/
def State.reExtend (s : State) (core ck : Nat) (rs : List ORange) (vas : List Nat) : State × Option (Option W64) :=
  vas.foldl (fun (p : State × Option (Option W64)) va =>
    let s := p.1
    if p.2.isSome || (s.extentAt core va).isSome || inSaveWindow va then p
    else
      let after := fun (s1 : State) => (s1, if (s1.extentAt core va).isSome then none else some none)
      if inParamWindow va then
        (if (SMap.look s.slots (ck * 2 ^ 28 + (va - 0xFD0000000000) / 4096)).isSome then after (s.installSlot core ck (BitVec.ofNat 64 va) 0) else p)
      else match s.walk ck va with
        | .leaf x => after ((s.noteWalk ck va).install core (missExtent rs va x) 0)
        | .hold => (s, some (some (BitVec.ofNat 64 va)))
        | _ => p) (s, none)

/-- An access whose page no table maps any more ends as its miss would (R357, R368). -/
def State.endMiss (s : State) (p : Nat × Ask × Check) : Nat × Ask × Check :=
  match p.2.2 with
  | .park va =>
    let ck := ((s.gridOfTeam (teamOfTh p.1)).map Grid.ctx).getD 0
    (p.1, p.2.1, .trap (if s.walk ck va = .bad then 0x10 else 0x07))
  | _ => p

/-- A thread that stands in its lane: one that has exited, or travels, takes no trap. -/
def State.thHere (s : State) (th : Nat) : Bool := ((SMap.look s.threads th).map (fun t => t.stat.here)).getD false

/-- A saved access of threads performed again (R78, R230, R235): it met its bound check at its issue (R278, R279); what it can no longer
reach traps the threads that still stand in their lanes. -/
def State.redoSaved (s : State) (wk : Nat) (e : REntry) (i : Instr) (m : MForm) (todo : List Nat) : Redone :=
  let core := (todo.head?.map s.coreOfTh).getD 0
  let g := (todo.head?.map teamOfTh).bind s.gridOfTeam
  let va := fun th => (e.rec_ (laneOfTh th)).addr.toNat
  let vas := if m.wh = .global then todo.flatMap (fun th => [va th, va th + (m.width - 1)]) else []
  let x := s.reExtend core ((g.map Grid.ctx).getD 0) ((g.map Grid.ranges).getD []) vas
  match x.2 with
  | some h => .wait x.1 h
  | none =>
    let cs := ((x.1.redoChecks i m { e with kind := 0 } todo).map x.1.endMiss).filter (fun p => match p.2.2 with | .ok _ => true | _ => x.1.thHere p.1)
    let n0 := (x.1.rqOf wk).length
    let r := (x.1.newId).2.issueChecked m wk x.1.nid e.pc 0 (e.ths.filter (fun th => m.elect || todo.contains th)) cs
    .done (r.1.updWarp wk (fun w => { w with rq := w.rq.take n0 ++ (w.rq.drop n0).map (fun q => { q with chkd := true }) }))
      ((r.2.filter (fun t => x.1.thHere t.th)).map (fun t => { t with rpc := x.1.stopPoint t.th }))

/-- One HALT entry of KIND 2 (R78, R230): done lanes write their registers from DATA, others are performed again; a fence issues again. -/
def State.redoHalt (s : State) (wk core : Nat) (e : REntry) : Redone :=
  let fence := fun (acq rel : Option Scope) (wide : Bool) => s.issueOp { baseOp .fence with
    wk := wk, core := core, pc := e.pc, w := e.w, acq := acq, rel := rel, gen := s.genOf wk, issued := s.now, inst := s.nid, ths := e.ths, wide := wide }
  let panel : LaneAcc :=
    let addr := (e.rec_ 0).addr
    let th := (e.ths.head?).getD (warpTh wk 0)
    { th := th, space := .scr (s.scrOwner th), addr := addr, pa := addr.toNat, pa2 := addr.toNat + 4, data := 0, data2 := 0
      got1 := none, got2 := none, flt := 0 }
  let counted := fun (x : State × Nat) => if e.w ≤ 5 then x.1.addEntry wk e.w x.2 0xFFFFFFFF else x.1
  match s.entryInstr wk e with
  | none => .done s []
  | some (.fence f) => .done (fence (acqOf f.ord f.scope) (relOf f.ord f.scope) false) []
  | some (.dqpop _) | some (.dqsteal _) => .done (fence none none true) []
  | some (.fld f) => .done (counted (s.fldOp f wk core e.pc panel)) []   -- its panel was checked when it was issued (R170, R235)
  | some (.fst f) =>
    let n := s.newId
    let ls := e.words.map (fun w => { panel with th := w.1, addr := w.2.1, pa := w.2.1.toNat, pa2 := w.2.1.toNat + 4, data := w.2.2 })
    let o : MemOp := { baseOp .store with wk := wk, core := core, pc := e.pc, width := 4, lanes := ls, w := e.w, byL2 := true, frag := some f.emod,
                                          gen := s.genOf wk, issued := s.now, inst := n.1 }
    .done (counted ({ n.2 with ops := SMap.ins n.2.ops n.1 o }, n.1)) []
  | some i =>
    match formOf i with
    | none => .done s []
    | some m =>
      let rec_ := fun th => SMap.look e.lanes (laneOfTh th)
      let done := fun th => ((rec_ th).map (fun r => r.stat.getLsbD 8)).getD true
      let s1 := (e.ths.filter (fun th => (rec_ th).isSome && done th)).foldl (fun (s : State) th =>
        let r := e.rec_ (laneOfTh th)
        let o := { m.op with wk := wk, width := m.width }
        let l : LaneAcc := { panel with th := th, space := .glob, addr := r.addr }
        s.writeBack o l (leBytes m.width r.data.toNat)) s
      match e.ths.filter (fun th => !done th) with
      | [] => .done s1 []
      | todo => s1.redoSaved wk e i m todo

/-- A saved copy finds the extents of its hulls again, page by page, and re-checks them (R189, R193): none where one has to wait. -/
def State.recheckCopy : Nat → State → Nat → EngOp → Desc → State × (RegCheck ⊕ Option W64)
  | 0, s, _, _, _ => (s, .inl (.trap 0x07))
  | n + 1, s, core, o, c =>
    match s.copyCheck o.th core c with
    | .park va =>
      let rs := ((s.gridOfTeam (teamOfTh o.th)).map Grid.ranges).getD []
      let x := s.reExtend core o.ctx rs [va]
      (match x.2 with
       | some h => (x.1, .inr h)
       | none => if (x.1.extentAt core va).isSome then x.1.recheckCopy n core o c
                 else (x.1, .inl (.trap (if s.walk o.ctx va = .bad then 0x10 else 0x07))))
    | r => (s, .inl r)

/-- A saved engine operation goes back into its cluster's tables (R193): a copy re-checks its hulls and takes its lock again; one that fails
the check ends with the code in its completion word (DESIGN CHOICE, assumption 128). -/
def State.redoEng (s : State) (core id : Nat) (o : EngOp) : Redone :=
  if o.kind = 2 then .done { s with eng := SMap.ins s.eng id { o with core := core } } []
  else
    match descOf o.kind (BitVec.ofNat 64 o.port) o.blk with
    | none => .done s []
    | some c =>
      let x := s.recheckCopy 128 core o c
      match x.2 with
      | .inr h => .wait x.1 h
      | .inl (.ok exts src dst) =>
        let cl := x.1.cluster (core / 4)
        .done { x.1 with eng := SMap.ins x.1.eng id { o with core := core, exts := exts }
                         clusters := SMap.ins x.1.clusters (core / 4) { cl with locks := cl.locks ++ [{ op := id, ctx := o.ctx, src := src, dst := dst }] } } []
      | .inl (.trap code) => .done (x.1.engDone id { o with trap := code }) []
      | .inl _ => .done (x.1.engDone id { o with trap := 0x07 }) []

/-- One HALT entry of a warp (R230): its accesses, its engine operation, or a waiting instruction, which its group issues again. -/
def State.redoEntry (s : State) (wk core : Nat) (e : REntry) : Redone :=
  if e.kind = 2 then s.redoHalt wk core e
  else if e.kind = 4 then
    (match SMap.find (fun _ o => o.wk == wk && o.core == 4096) s.eng with
     | some (id, o) => s.redoEng core id o
     | none => .done s [])
  else .done s []

/-- HALT entries in entry order, `n` of them at most, until one has to wait (R230). -/
def reinjectFrom : Nat → Nat → Nat → State × List TrapReq → State × List TrapReq
  | 0, _, _, p => p
  | n + 1, wk, core, p =>
    match (p.1.rqOf wk).findIdx? REntry.halt with
    | none => p
    | some k =>
      match (p.1.rqOf wk)[k]? with
      | none => p
      | some e =>
        if e.hold.isSome then p
        else match p.1.redoEntry wk core e with
          | .done s1 ts => reinjectFrom n wk core (s1.dropEntry wk k (p.2 ++ ts))
          | .wait s1 h => (s1.setEntry wk k { e with hold := h }, p.2)

/-- The HALT entries of a warp are re-injected in entry order, before any of its threads issues (R230). -/
def State.reinject (s : State) (wk core : Nat) : State :=
  let r := reinjectFrom (s.rqOf wk).length wk core (s, [])
  r.1.deliver r.2

/-- A warp has HALT entries that are still to be re-injected (R230). -/
def State.redoing (s : State) (wk : Nat) : Bool := (s.rqOf wk).any REntry.halt

/-! Team records (R363, R364). -/

/-- Where the save area lies (R363). -/
def saveBase : Nat := 0xFF0000000000

/-- The bytes a team's record needs (R364). -/
def recLen (g : Grid) : Nat := 4096 * ((8192 + g.warps * (128 * g.nv + 8 * g.ns + 34304) + g.scratch + 4095) / 4096)

/-- A record's header (R364). -/
def recHeader (len : Nat) (grid : W32) (team kind : Nat) : List Byte :=
  leBytes 4 len ++ leBytes 4 grid.toNat ++ leBytes 4 team ++ leBytes 1 kind ++ List.replicate 51 0

/-- The lowest free place that a record fits (R364). -/
def freePlace (recs : List SRec) (n : Nat) : Option SRec :=
  (recs.filter (fun r => r.kind == 0 && decide (n ≤ r.len))).foldl (fun b r =>
    match b with
    | none => some r
    | some x => if r.off < x.off then some r else some x) none

/-- What a team's record holds (R363, R364): registers and predicates, counters and tokens, the scratchpad, barrier and message state, and
each warp's replay queue. -/
def State.recBody (s : State) (tk : Nat) (g : Grid) : List Byte :=
  let wks := (List.range g.warps).map (warpKey tk)
  let ths := (List.range (32 * g.warps)).map (thKey tk)
  ths.flatMap (fun th => (List.range g.nv).flatMap (fun r => leBytes 4 (s.vget th r).toNat))
    ++ wks.flatMap (fun wk => (List.range g.ns).flatMap (fun r => leBytes 8 (s.sget wk r).toNat))
    ++ ths.map (fun th => BitVec.ofNat 8 ((List.range 7).foldl (fun n p => n + (if s.pget th p then 2 ^ p else 0)) 0))
    ++ wks.flatMap (fun wk => (((SMap.look s.warps wk).map Warp.entries).getD []).flatMap (fun e => leBytes 1 e.w ++ leBytes 4 e.left.toNat))
    ++ (upFrom 0 g.scratch).map (fun k => (SMap.look s.scr (2 * tk * 2 ^ 18 + k)).getD 0)
    ++ s.bars.flatMap (fun b => leBytes 4 b.2.phase.toNat ++ leBytes 2 b.2.arrived.length)
    ++ (((SMap.look s.teams tk).map (fun t => t.posted)).getD []).flatMap (fun r => leBytes 4 r.src.toNat ++ leBytes 2 r.tag.toNat ++ leBytes 8 r.buf.toNat)
    ++ (((SMap.look s.teams tk).map (fun t => t.ovf)).getD []).flatMap (fun m => m.words.flatMap (fun w => leBytes 4 w.toNat))
    ++ wks.flatMap (fun wk => (s.rqOf wk).flatMap REntry.bytes)

/-- A team's record written in the lowest free place that fits, else at TEND; false where a page is not writable (R363, R364). -/
def State.writeRec (s : State) (ck : Nat) (g : Grid) (idx kind : Nat) : State × Bool :=
  let c := (SMap.look s.ctxs ck).getD {}
  let n := recLen g
  let pl := freePlace c.recs n
  let off := (pl.map SRec.off).getD c.tend
  let len := (pl.map SRec.len).getD n
  if !s.rangeMapped ck (saveBase + off) len true || !s.rangeMapped ck (saveBase + 0xFF8) 8 true then (s, false)
  else
    let r : SRec := { off := off, len := len, grid := g.num, team := idx, kind := kind }
    let tk := ((SMap.find (fun _ t => t.idx == idx && ((SMap.look s.grids t.grid).map Grid.num) == some g.num
      && ((SMap.look s.grids t.grid).map Grid.ctx) == some ck) s.teams).map Prod.fst).getD 0
    let s1 := (s.writeVirt ck (saveBase + off) (recHeader len g.num idx kind ++ (Config.recordImage (s.recBody tk g)).take (len - 64))).1
    let tend := match pl with | some _ => c.tend | none => c.tend + n
    let s2 := (s1.writeVirt ck (saveBase + 0xFF8) (leBytes 8 tend)).1
    (s2.updCtx ck (fun c => { c with recs := c.recs.filter (fun x => x.off != off) ++ [r], tend := tend }), true)

/-- A team's record becomes free (R364). -/
def State.freeRec (s : State) (ck : Nat) (g : Grid) (idx : Nat) : State :=
  match (((SMap.look s.ctxs ck).map Ctx.recs).getD []).find? (fun r => r.grid == g.num && r.team == idx && r.kind != 0) with
  | none => s
  | some r =>
    (s.writeVirt ck (saveBase + r.off + 12) [0]).1.updCtx ck (fun c =>
      { c with recs := c.recs.map (fun x => if x.off = r.off then { x with kind := 0 } else x) })

/-- A team's record holds an uncorrectable sector (R368). -/
def State.recBad (s : State) (ck : Nat) (g : Grid) (idx : Nat) : Bool :=
  match (((SMap.look s.ctxs ck).map Ctx.recs).getD []).find? (fun r => r.grid == g.num && r.team == idx && r.kind != 0) with
  | none => false
  | some r => !s.bad.isEmpty && (upFrom 0 (r.len / 4096)).any (fun k =>
      let va := saveBase + r.off + 4096 * k
      match s.walk ck va with
      | .leaf x => s.bad.any (fun e => e.1 / 128 == x.phys va / 4096)
      | _ => false)

/-- A team whose record cannot be read stays halted or suspended, and its context is halted as for a supervisor fault with code
DATA_ERROR (R362, R368); the record's address and PC are those of no thread, and free (assumption 3). -/
def State.saveFault (s : State) (tk : Nat) : State :=
  match SMap.look s.teams tk, s.gridOfTeam tk with
  | some t, some g =>
    let c := (SMap.look s.ctxs g.ctx).getD {}
    if c.fault.isSome then s
    else
      let x := s.free
      let y := x.2.free
      let th := ((s.threads.find? (fun e => teamOfTh e.1 == tk && e.2.stat != .exited)).map Prod.fst).getD 0
      let info : FaultInfo := { tk := tk, code := 0x10, lane := laneOfTh th, warp := tidOf th / 32, team := t.idx, info := x.1,
                                pc := y.1 &&& 0xFFFFFFFFFFFF, rec_ := none }
      let s1 := y.2.updCtx g.ctx (fun c => { c with halting := some 4, fault := some info })
      if c.halting.isSome then s1 else (s1.stopContext g.ctx).bumpTags g.ctx
  | _, _ => s

/-! A stopped team goes on (R206, R230, R258, R263). -/

/-- The saved engine operations of teams fit the tables of a cluster (R277). -/
def State.tablesFit (s : State) (tks : List Nat) (cl : Nat) : Bool :=
  let n := (s.eng.filter (fun e => tks.contains (teamOfTh e.2.th) && e.2.core == 4096)).length
  decide (s.tableUse cl + n ≤ 16) && decide ((s.cluster cl).locks.length + n ≤ 32)

/-- A team's posted receives fit the list of a core (R299). -/
def State.receivesFit (s : State) (tk core : Nat) : Bool :=
  decide ((s.coreOf core).posted.length + (((SMap.look s.teams tk).map (fun t => t.posted.length)).getD 0) ≤ 16)

/-- The core a stopped team goes to (R258, R407): with its placed siblings, its rank on its position. -/
def State.resumeCore (s : State) (tk : Nat) : Option Nat :=
  match SMap.look s.teams tk, s.gridOfTeam tk with
  | some t, some g =>
    let k := max g.cg 1
    let sibs := s.teams.filter (fun e => e.2.grid == t.grid && e.2.idx / k == t.idx / k && e.2.at_ == .placed)
    s.planish ((s.partCores (g.ctx / 8)).filter (fun c => s.fits g c && s.tablesFit [tk] (c / 4) && s.receivesFit tk c &&
      (k == 1 || (c % 4 == t.idx % k && sibs.all (fun e => e.2.core / 4 == c / 4)))))
  | _, _ => none

/-- The deque of a core that no team of the context is left on, or waits to go back to, goes with the last of them to the bottom of its new
core's; what would make more than 256 entries there stays behind (R2, R208, R263; assumption 137). -/
def State.carryDeque (s : State) (tk old new_ ck : Nat) : State :=
  let stays := s.teams.any (fun e => e.1 != tk && e.2.core == old && (e.2.at_ == .placed || e.2.at_ == .halted || e.2.at_ == .suspended)
    && (s.gridOfTeam e.1).any (fun g => g.ctx == ck && !g.travel))
  if old == new_ || stays then s
  else
    let live := if (s.coreOf old).ctx = some ck then (s.coreOf old).deque else []
    let kept := ((SMap.look s.ctxs ck).bind (fun c => SMap.look c.deques old)).getD []
    let room := 256 - (s.coreOf new_).deque.length
    let go := (kept ++ live).take room
    let rest := (kept ++ live).drop room
    let s1 := if (s.coreOf old).ctx = some ck then s.updCore old (fun c => { c with deque := rest }) else s
    let s2 := s1.updCtx ck (fun c => { c with deques := if rest.isEmpty ∨ (s.coreOf old).ctx = some ck then SMap.del c.deques old
                                                        else SMap.ins c.deques old rest })
    s2.updCore new_ (fun c => { c with deque := c.deque ++ go })

/-- A stopped team is on a core again: its work is re-injected, its receives stand there, its ready threads enter the table (R230, R263,
R264, R271). -/
def State.arriveTeam (s : State) (tk core : Nat) : State :=
  match s.gridOfTeam tk with
  | none => s
  | some g =>
    let old := ((SMap.look s.teams tk).map Team.core).getD core
    let s1 := ((s.enterCore core g.ctx).carryDeque tk old core g.ctx).updTeam tk (fun t => { t with core := core, at_ := .placed })
    let s2 := (s1.goCycles tk).loadExtents core g (s1.rangesOf g.ctx g.ranges)
    -- members of a rendezvous join it again (R97), and a group that waited waits on (R304)
    let s3 := { s2 with groups := SMap.mapV (fun _ (g : Group) => if g.team = tk then { g with core := core, latch := [], issued := false } else g) s2.groups }
    let s4 := (s3.teamWarps tk).foldl (fun s wk => s.reinject wk core) s3
    let ready := (s4.threads.filter (fun e => teamOfTh e.1 == tk && e.2.stat == .ready)).map Prod.fst
    (ready.foldl (fun s th => s.placeReady th) s4).landReceives tk core

/-- Nothing of a stopped team is on its way any more. -/
def State.teamStill (s : State) (tk : Nat) : Bool :=
  !s.ops.any (fun e => (e.2.lanes.any (fun l => teamOfTh l.th == tk) || ((SMap.look s.warps e.2.wk).map Warp.team) == some tk))
    && !s.pend.any (fun e => teamOfTh e.2.th == tk) && !s.eng.any (fun e => teamOfTh e.2.th == tk && decide (e.2.core < 4096))

/-- A team suspended in FJOIN whose last child has retired may resume (R206, R262). -/
def State.mayResume (s : State) (tk : Nat) : Bool :=
  match SMap.look s.teams tk, s.gridOfTeam tk with
  | some t, some g => t.at_ == .suspended && t.children == 0 && s.mayStart g.ctx && !s.quiesced (g.ctx / 8) && s.teamStill tk
  | _, _ => false

/-- FJOIN_RESUME (R206, R230): the team goes on after its FJOIN, on any core with capacity; its save record is free (R364); one
that holds an uncorrectable error halts its context (R368). -/
def State.fjoinResume (s : State) (tk : Nat) : State :=
  if !s.mayResume tk then s
  else
    match s.resumeCore tk, SMap.look s.teams tk, s.gridOfTeam tk with
    | some core, some t, some g =>
      if s.recBad g.ctx g t.idx then s.saveFault tk else ((s.freeRec g.ctx g t.idx).arriveTeam tk core).releaseFjoin tk
    | _, _, _ => s

/-- TEAM_PLACE (R255 to R259, R262): the dispatcher of a partition places the next team, cluster group or grid of the slice holder;
teams that can resume go first. -/
def State.teamPlace (s : State) (p : Nat) : State :=
  match (s.fe p).holder with
  | none => s
  | some n =>
    let ck := 8 * p + n
    if !s.mayStart ck || s.quiesced p || !(s.teams.filter (fun e => e.2.at_ == .halted && (s.gridOfTeam e.1).any (fun g => g.ctx == ck))).isEmpty then s
    else if s.teams.any (fun e => s.mayResume e.1 && (s.gridOfTeam e.1).any (fun g => g.ctx == ck) && (s.resumeCore e.1).isSome) then s
    else placeFirst s (s.units ck) (fun _ => true) s

/-- TEAM_PROTECTION (R257): passed over for 1 ms of %wall. -/
def State.teamProtect (s : State) (tk : Nat) : State :=
  match SMap.look s.teams tk with
  | some t =>
    (match t.passed with
     | some at_ => if t.at_ = .unplaced ∧ at_ + 84000000 ≤ s.now then s.updTeam tk (fun t => { t with prot := true }) else s
     | none => s)
  | none => s

/-! The end of a team (R109, R206, R207, R324). -/

/-- A team ends with its last warp, once everything it wrote is performed (R109, R207, R324). -/
def State.teamOver (s : State) (tk : Nat) : Bool :=
  match SMap.look s.teams tk, s.gridOfTeam tk with
  | some t, some g =>
    t.at_ == .placed && s.teamStill tk && !(s.warps.any (fun e => e.2.rq.any (fun q => q.halt && q.ths.any (fun th => teamOfTh th == tk)))) &&
      (if g.travel then s.teamLive tk == 0 else (List.range g.warps).all (fun w => s.warpFree (warpKey tk w)))
  | _, _ => false

/-- A team's registers, threads and warps are free (R109, R207); the scratchpads of its cluster group once all of it has exited (R144). -/
def State.freeTeam (s : State) (tk : Nat) : State :=
  let core := ((SMap.look s.teams tk).map Team.core).getD 0
  let mates := s.mates tk
  let gone := if mates.any (fun m => m.1 != tk && !m.2.isOver) then [] else mates.map Prod.fst
  let s1 := s.updCore core (fun c => { c with posted := c.posted.filter (fun r => r.team != tk) })
  { s1 with
    v := SMap.keep (fun k _ => teamOfTh (k / 256) != tk) s1.v
    pr := SMap.keep (fun k _ => teamOfTh (k / 8) != tk) s1.pr
    sr := SMap.keep (fun k _ => decide (k / 64 % 2 = 1 ∨ k / 64 / 2 / 64 ≠ tk)) s1.sr
    vbusy := SMap.keep (fun k _ => teamOfTh (k / 256) != tk) s1.vbusy
    vbad := SMap.keep (fun k _ => teamOfTh (k / 256) != tk) s1.vbad
    sbad := SMap.keep (fun k _ => decide (k / 64 % 2 = 1 ∨ k / 64 / 2 / 64 ≠ tk)) s1.sbad
    armed := SMap.keep (fun k _ => decide (k / 64 % 2 = 1 ∨ k / 64 / 2 / 64 ≠ tk)) s1.armed
    threads := SMap.keep (fun k _ => teamOfTh k != tk) s1.threads
    warps := SMap.keep (fun k _ => decide (k % 2 = 1 ∨ k / 2 / 64 ≠ tk)) s1.warps
    scr := SMap.keep (fun k _ => !gone.any (fun t => k / 2 ^ 18 == 2 * t)) s1.scr
    scrBad := SMap.keep (fun k _ => !gone.any (fun t => k / 2 ^ 16 == 2 * t)) s1.scrBad }

/-- The completion bit of a team (R324). -/
def State.markDone (s : State) (g : Grid) (idx : Nat) : State :=
  match g.bmap with
  | none => s
  | some a =>
    let va := a.toNat + idx / 8
    match s.walk g.ctx va with
    | .leaf e => if e.w then (s.setByte (e.phys va) (s.byte (e.phys va) ||| (1#8 <<< (idx % 8)))).l2Pass (e.phys va) true else s
    | _ => s

/-- A team retires; with the last of its grid the grid ends (R207, R324). -/
def State.retireTeam (s : State) (tk : Nat) : State :=
  match SMap.look s.teams tk, s.gridOfTeam tk with
  | some t, some g =>
    let s1 := (s.markDone g t.idx).updTeam tk (fun t => { t with at_ := .retired, ovf := [], fjoined := [] })
    let s2 := s1.updGrid t.grid (fun g => { g with teamsLeft := g.teamsLeft - 1 })
    if g.teamsLeft ≤ 1 then s2.gridEnds t.grid 0 0 else s2
  | _, _ => s

/-- TEAM_RETIRE (R109, R207, R324): a team whose last warp is freed gives up its core; with children outstanding it retires after
them. -/
def State.teamRetire (s : State) (tk : Nat) : State :=
  match SMap.look s.teams tk with
  | none => s
  | some t =>
    if t.at_ = .retiring ∧ t.children = 0 then s.retireTeam tk
    else if s.teamOver tk then
      let s1 := ((s.stopCycles tk).freeTeam tk)
      if t.children = 0 then s1.retireTeam tk else s1.updTeam tk (fun t => { t with at_ := .retiring })
    else s

end Sys2Proof.Machine
end

