-- ==== Sys2Proof/Machine/Halt.lean ====
section
/-!
DEFINITION. Slices, pre-emption and its three steps, restore, forced reset, faults delivered to the supervisor, and the hang detector
(R226, R230, R263, R294, R303 to R306, R319, R362 to R365).
-/
namespace Sys2Proof.Machine

/-! What belongs to a context. -/

/-- A team belongs to a context. -/
def State.teamIn (s : State) (ck tk : Nat) : Bool := (s.gridOfTeam tk).any (fun g => g.ctx == ck)

/-- A thread belongs to a context. -/
def State.thIn (s : State) (ck th : Nat) : Bool := s.teamIn ck (teamOfTh th)

/-- The warps that hold threads of a context, and those whose operations act for such threads. -/
def State.ctxWarps (s : State) (ck : Nat) : List Nat :=
  (s.warpsOf ((s.threads.filter (fun e => s.thIn ck e.1)).map Prod.fst)
    ++ (s.ops.filter (fun e => e.2.lanes.any (fun l => s.thIn ck l.th))).map (fun e => e.2.wk)).eraseDups

/-- A context's teams that stand in a place. -/
def State.teamsAt (s : State) (ck : Nat) (a : TeamAt) : List Nat :=
  (s.teams.filter (fun e => e.2.at_ == a && s.teamIn ck e.1)).map Prod.fst

/-- A context has work (R316, R319): a run, a queued trigger, a resident grid, or grids that have not ended. -/
def State.hasWork (s : State) (ck : Nat) : Bool :=
  (SMap.look s.runs ck).isSome || (s.fe (ck / 8)).queue.any (fun t => t.ctx == ck)
    || s.grids.any (fun e => e.2.ctx == ck && !e.2.done && ((SMap.look s.ctxs ck).map (fun c => c.fault.isNone)).getD true)

/-! The end of everything a context runs (R193, R318, R365). -/

/-- A context's grids end without a record of their teams: registers, queues and operations go (R193, R365). -/
def State.killGrids (s : State) (ck : Nat) : State :=
  let tks := (s.teams.filter (fun e => s.teamIn ck e.1)).map Prod.fst
  let mine := fun tk => tks.contains tk
  let wks := s.ctxWarps ck ++ (s.warps.filter (fun e => mine e.2.team)).map Prod.fst
  let has := fun wk => wks.contains wk
  let gks := (s.grids.filter (fun e => e.2.ctx == ck)).map Prod.fst
  let segOf := fun (c : CoreSt) => match c.seg with | some (gk, _) => gks.contains gk | none => false
  let live := gks.filter (fun gk => !(((SMap.look s.grids gk).map Grid.done).getD true))
  let s0 := live.foldl (fun s gk => match SMap.look s.grids gk with
    | some g => if g.node.isNone then s.dropSlot ck (slotOf g.param) else s
    | none => s) s
  let s1 : State := { s0 with
    ops := SMap.keep (fun _ o => !has o.wk || o.held) s0.ops
    eng := SMap.keep (fun _ o => !has o.wk) s0.eng
    vown := (s0.eng.filter (fun e => has e.2.wk)).foldl (fun m e => ownClear m e.1) s0.vown
    vread := (s0.eng.filter (fun e => has e.2.wk)).foldl (fun m e => ownClear m e.1) s0.vread
    sbusy := SMap.keep (fun k _ => !has (k / 64)) s0.sbusy
    rdvs := SMap.keep (fun _ r => !has r.wk) s0.rdvs
    groups := SMap.keep (fun _ g => !mine g.team) s0.groups
    forks := SMap.keep (fun _ r => !has r.wk) s0.forks
    segreqs := SMap.keep (fun _ r => r.ctx != ck) s0.segreqs
    flying := s0.flying.filter (fun p => !mine (teamOfTh p.th))
    saved := SMap.keep (fun k _ => !gks.contains (k / 4096)) s0.saved
    warps := SMap.keep (fun k _ => !has k) s0.warps
    grids := SMap.mapV (fun _ (g : Grid) => if g.ctx = ck then { g with done := true } else g) s0.grids
    clusters := SMap.mapV (fun _ (c : Cluster) => { c with claims := c.claims.filter (fun q => q.ctx != ck)
                                                           locks := c.locks.filter (fun l => l.ctx != ck) }) s0.clusters
    cores := SMap.mapV (fun _ (c : CoreSt) =>
      if segOf c then { c with seg := none, queue := [], ovf := [], owed := [], arrivals := [], posted := [] }
      else { c with posted := c.posted.filter (fun r => !mine r.team), arrivals := c.arrivals.filter (fun th => !mine (teamOfTh th)) }) s0.cores }
  tks.foldl (fun s tk => (s.freeTeam tk).updTeam tk (fun t => { t with at_ := .retired, ovf := [], posted := [], fjoined := [] }))
    (s1.clearSlots (fun c => gks.contains (c / 4096 - 1) && decide (4096 ≤ c)))

/-- The nodes of a context's run end: those launched with a status each, those waiting with 9, and then the run (R323, R362, R365). -/
def State.stopRun (s : State) (ck runStatus : Nat) (status : Nat → Nat × W64) : State :=
  match SMap.look s.runs ck with
  | none => s
  | some r =>
    let s1 := (List.range r.nodes.length).foldl (fun s i =>
      match r.nodeAt i with
      | .waiting => s.endNode ck i 9 0
      | .launched gk => let q := status gk; s.endNode ck i q.1 q.2
      | .ended _ => s) s
    { s1 with runs := SMap.del s1.runs ck }.doneRecord 0x0002 ck 0xFFFF r.trig.graph r.trig.seq runStatus 0

/-- A context gives up its front end's slice (R319). -/
def State.passOn (s : State) (ck : Nat) : State :=
  if (s.fe (ck / 8)).holder = some (ck % 8) then s.updFe (ck / 8) (fun f => { f with holder := none, prev := some (ck % 8) }) else s

/-- A context's deques are with no core (R208, R263). -/
def State.liftDeques (s : State) (ck : Nat) : State :=
  ((s.cores.filter (fun e => e.2.ctx == some ck)).map Prod.fst).foldl (fun s c => s.leaveCore c) s

/-- A forced reset (R162, R193, R365): the context's teams end without resuming, its open cells close without a write, its run ends
with status 6; writes already performed stay, and the context stays live. -/
def State.forceReset (s : State) (ck : Nat) : State :=
  let res := (s.fe (ck / 8)).resGrid.isSome && ck % 8 == 0
  let s1 := ((s.liftDeques ck).killGrids ck)
  let s2 := { s1 with cells := SMap.keep (fun _ c => c.ctx != ck) s1.cells }
  let s3 := s2.stopRun ck 6 (fun _ => (6, 0))
  let s4 := if res then (s3.updFe (ck / 8) (fun f => { f with resGrid := none })).doneRecord 0x0001 ck 0xFFFF 0 0 6 0 else s3
  (s4.updCtx ck (fun c => { c with sstate := 5, halting := none, drainAt := none, haltAt := none, fault := none, deques := []
                                   recs := c.recs.map (fun r => { r with kind := 0 }) })).passOn ck

/-! A hard halt begins (R226, R363, R365). -/

/-- The two limits of the save area, µs, read at a pre-emption: soft drain, hard halt (R363). -/
def State.limits (s : State) (ck : Nat) : Nat × Nat :=
  match s.readVirt ck saveBase 8 with
  | some b =>
    let x := blkField b 0 4
    let y := blkField b 4 4
    (if x = 0 then 200 else x, if y = 0 then 50 else y)
  | none => (200, 50)

/-- The device stops every group of a context and moves on its generation tags (R365). -/
def State.beginHalt (s : State) (ck code : Nat) : State :=
  if ((SMap.look s.ctxs ck).map (fun c => c.halting.isSome)).getD true then s
  else ((s.updCtx ck (fun c => { c with halting := some code })).stopContext ck).bumpTags ck

/-- Teams of a context that a resize has stopped stand on their cores again, for its halt to save them (R353). -/
def State.unmove (s : State) (ck : Nat) : State :=
  match s.rsz with
  | some r =>
    if r.state = 2 then
      let mine := r.moved.filter (s.teamIn ck)
      mine.foldl (fun s tk => s.updTeam tk (fun t => if t.at_ = .halted then { t with at_ := .placed } else t))
        { s with rsz := some { r with moved := r.moved.filter (fun tk => !s.teamIn ck tk) } }
    else s
  | none => s

/-- A context whose halt has just begun gets its limit, and its waiting BOOST claims are withdrawn (R363, R365). -/
def State.settleHalts (s : State) : State :=
  s.ctxs.foldl (fun s e =>
    if e.2.halting.isSome && e.2.haltAt.isNone then
      { ((s.unmove e.1).updCtx e.1 (fun c => { c with haltAt := some (s.now + 84000 * (s.limits e.1).2), drainAt := none })) with
        clusters := SMap.mapV (fun _ (c : Cluster) => { c with claims := c.claims.filter (fun q => q.ctx != e.1) }) s.clusters }
    else s) s

/-! HALT_COMPLETE (R193, R294, R363 to R365). -/

/-- Nothing of a context keeps its halt from completing: atomics have returned, merged writes are performed, and the engine operations
that run to completion have ended (R193, R365). -/
def State.haltReady (s : State) (ck : Nat) : Bool :=
  let wks := s.ctxWarps ck
  !s.ops.any (fun e => wks.contains e.2.wk && !e.2.saved && e.2.kind != .pref && e.2.kind != .linv)
    && !s.pend.any (fun e => s.thIn ck e.2.th)
    && !s.eng.any (fun e => wks.contains e.2.wk && decide (e.2.core < 4096) && !e.2.saved)

/-- The new core of an old one. -/
def movedTo (l : List (Nat × Nat)) (c : Nat) : Nat := (((l.find? (fun p => p.1 == c)).map Prod.snd)).getD c

/-- The slot keys of moved segment cores (R294, R295). -/
def moveWk (m : Nat → Nat) (wk : Nat) : Nat := if wk % 2 = 1 then slotKey (m (wk / 2 / 64)) (wk / 2 % 64) else wk

/-- Everything that names a segment core is renamed, from the first of each pair to the second: threads, slots, operations, merged writes,
groups, scratchpads; what an ended grid left on the new cores is gone (R269, R294, R295). -/
def State.rehome (s0 : State) (l : List (Nat × Nat)) : State :=
  let m := movedTo l
  let s := s0.clearSlots (fun c => l.any (fun p => p.2 == c) && !l.any (fun p => p.1 == c))
  let key := fun {β : Type} (f : Nat → Nat) (x : SMap β) => x.foldl (fun (y : SMap β) e => SMap.ins y (f e.1) e.2) []
  let owner := fun (n k : Nat) => if k / n % 2 = 1 then (2 * m (k / n / 2) + 1) * n + k % n else k
  { s with
    threads := SMap.mapV (fun _ (t : Thread) => { t with wk := moveWk m t.wk }) s.threads
    warps := key (moveWk m) s.warps
    ops := SMap.mapV (fun _ (o : MemOp) => if o.wk % 2 = 1 then { o with wk := moveWk m o.wk, core := m o.core } else o) s.ops
    pend := SMap.mapV (fun _ (o : Pend) => if o.wk % 2 = 1 then { o with wk := moveWk m o.wk, core := m o.core } else o) s.pend
    groups := SMap.mapV (fun _ (g : Group) =>
      if (g.threads.head?.map s.wkOf).any (fun w => w % 2 == 1) then { g with core := m g.core, latch := [] } else g) s.groups
    scr := key (owner (2 ^ 18)) s.scr
    scrBad := key (owner (2 ^ 16)) s.scrBad }

/-- The number a halted travelling grid's segment core has while what it held is kept (R294). -/
def keptCore (gk core : Nat) : Nat := 4096 * (gk + 1) + core

/-- A halted travelling grid's parcels stand in its rings, and its segment cores are free; what they held is kept (R294). -/
def State.haltTravel (s : State) (gk : Nat) (g : Grid) : State :=
  let s1 := g.segs.foldl (fun (s : State) e =>
    let queued := e.2.cores.flatMap (fun c => (s.coreOf c).queue)
    let inAir := s.flying.filter (fun p => p.seg == e.1 && ((SMap.look s.teams (teamOfTh p.th)).map Team.grid) == some gk)
    (queued ++ inAir).foldl (fun (s : State) p => s.ringPush gk e.1 p true) s) s
  let s2 := { s1 with flying := s1.flying.filter (fun p => ((SMap.look s1.teams (teamOfTh p.th)).map Team.grid) != some gk) }
  let cs := g.segs.flatMap (fun e => e.2.cores)
  let s3 := cs.foldl (fun (s : State) c =>
    let k := s.coreOf c
    let slots := (s.threads.filter (fun e => e.2.inSlot && s.coreOfTh e.1 == c)).map Prod.fst
    let s1 := (s.leaveTable c slots).leaveCore c
    { s1 with saved := SMap.ins s1.saved (4096 * gk + c) { k with queue := [], arrivals := [] } }.updCore c (fun _ => {})) s2
  s3.rehome (cs.map (fun c => (c, keptCore gk c)))

/-- One team stops with its core: its work is saved, its receives lifted, its BOOST claims withdrawn, its cycles stand still
(R230, R263, R264). -/
def State.haltTeam (s : State) (tk : Nat) : State :=
  let core := ((SMap.look s.teams tk).map Team.core).getD 0
  let travel := ((s.gridOfTeam tk).map Grid.travel).getD false
  let s1 := ((s.teamWarps tk).foldl (fun s wk => s.saveWarp wk) s).stopCycles tk
  let mine := (s1.threads.filter (fun e => teamOfTh e.1 == tk)).map Prod.fst
  let s2 := if travel then s1 else (s1.leaveTable core mine).liftReceives tk
  let wks := s.teamWarps tk
  { s2.updTeam tk (fun t => { t with at_ := .halted }) with
    clusters := SMap.mapV (fun _ (c : Cluster) => { c with claims := c.claims.filter (fun q => !wks.contains q.wk) }) s2.clusters }

/-- Teams in the order their records are written: ascending %grid, then %team (R364). -/
def State.recordOrder (s : State) (tks : List Nat) : List Nat :=
  let key := fun tk => (((s.gridOfTeam tk).map (fun g => g.num.toNat)).getD 0, ((SMap.look s.teams tk).map Team.idx).getD 0)
  let lt := fun a b => let x := key a; let y := key b; decide (x.1 < y.1) || (x.1 == y.1 && decide (x.2 < y.2))
  tks.foldl (fun l tk => l.takeWhile (fun x => lt x tk) ++ [tk] ++ l.dropWhile (fun x => lt x tk)) []

/-- The records of teams written one after another; false at the first page that is not writable (R363). -/
def State.writeRecs (s : State) (ck kind : Nat) : List Nat → State × Bool
  | [] => (s, true)
  | tk :: tks =>
    match s.gridOfTeam tk, SMap.look s.teams tk with
    | some g, some t =>
      let r := s.writeRec ck g t.idx kind
      if r.2 then r.1.writeRecs ck kind tks else r
    | _, _ => s.writeRecs ck kind tks

/-- The grid at the root of a tree of grids (R203). -/
def State.rootGrid (s : State) : Nat → Nat → Nat
  | 0, gk => gk
  | n + 1, gk =>
    match ((SMap.look s.grids gk).bind Grid.parent).bind (fun tk => SMap.look s.teams tk) with
    | some t => s.rootGrid n t.grid
    | none => gk

/-- HDR of the first replay entry of a team's warps, 0 for none (R326). -/
def State.firstHdr (s : State) (tk : Nat) : W64 :=
  (((s.teamWarps tk).findSome? (fun wk => (s.rqOf wk).find? (fun e => !e.halt))).map REntry.hdr).getD 0

/-- A fault delivered to the supervisor, or HANG: its FAULT record, its node with status 5, the others, and the run (R362). -/
def State.faultRun (s : State) (ck : Nat) (f : FaultInfo) : State :=
  let p := ck / 8
  let root := s.rootGrid 11 (((SMap.look s.teams f.tk).map Team.grid).getD 0)
  let hdr := s.firstHdr f.tk
  let s1 := s.post p 0x0031 [(8, 1, ck % 8), (9, 1, f.code), (10, 1, f.lane), (11, 1, f.warp), (12, 4, f.team), (16, 8, f.info.toNat),
    (24, 6, f.pc.toNat)]
  let s2 := s1.stopRun ck 5 (fun gk => if gk = root then (5, hdr) else (6, 0))
  if (s2.fe p).resGrid.isSome && ck % 8 == 0 then (s2.updFe p (fun x => { x with resGrid := none })).doneRecord 0x0001 ck 0xFFFF 0 0 5 hdr
  else s2

/-- The child grids of a context that a fault for the supervisor ends: each one's completion word is written before its parent's record
(R205). -/
def State.endChildren (s : State) (ck : Nat) : State :=
  (s.grids.filter (fun e => e.2.ctx == ck && !e.2.done && e.2.parent.isSome)).foldl (fun s e => s.tellParent e.2 4) s

/-- What the device's own part of a save holds (R363): barrier units, deques, grid and node progress. -/
def State.deviceBody (s : State) (ck : Nat) : List Byte :=
  let c := (SMap.look s.ctxs ck).getD {}
  let runs := ((SMap.look s.runs ck).map (fun r => r.nodes)).getD []
  s.bars.flatMap (fun b => leBytes 8 b.1 ++ leBytes 4 b.2.phase.toNat ++ b.2.arrived.flatMap (fun th => leBytes 4 th))
    ++ c.deques.flatMap (fun d => leBytes 2 d.1 ++ d.2.flatMap (fun w => leBytes 8 w.toNat))
    ++ (s.grids.filter (fun g => g.2.ctx == ck)).flatMap (fun g => leBytes 4 g.2.num.toNat ++ leBytes 4 g.2.teamsLeft ++ leBytes 1 g.2.done.toNat)
    ++ runs.flatMap (fun n => match n with | .waiting => [0, 0] | .launched gk => 1 :: leBytes 4 gk | .ended k => 2 :: leBytes 1 k)

/-- The device's own part of a save written in the window's first page, from byte 8 to TEND (R363). -/
def State.saveDevice (s : State) (ck : Nat) : State :=
  (s.writeVirt ck (saveBase + 8) ((List.range 4080).map (Config.deviceByte (s.deviceBody ck)))).1

/-- HALT_COMPLETE (R362 to R365): within its limit, the records of the resident teams and the device's own state are written and STATE
says how the context was halted; a save that meets a page it cannot write stops there and forces a reset. -/
def State.haltComplete (s : State) (ck : Nat) : State :=
  match SMap.look s.ctxs ck with
  | none => s
  | some c =>
    match c.halting with
    | none => s
    | some code =>
      if !s.haltReady ck || c.haltAt.any (fun t => decide (t < s.now)) then s
      else
        let tks := s.recordOrder (s.teamsAt ck .placed)
        let s1 := tks.foldl (fun s tk => s.haltTeam tk) s
        let s2 := (s1.grids.filter (fun e => e.2.ctx == ck && e.2.travel && !e.2.done)).foldl (fun s e => s.haltTravel e.1 e.2)
          (if c.fault.isSome then s1.endChildren ck else s1)
        let r := if s2.rangeMapped ck saveBase 4096 true then s2.writeRecs ck 1 tks else (s2, false)
        if !r.2 then r.1.forceReset ck
        else
          let pages := (tks.map (fun tk => ((s.gridOfTeam tk).map (fun g => recLen g / 4096)).getD 0)).sum + 1 + (if code = 3 then c.gpages else 0)
          let s3 := ((r.1.liftDeques ck).saveDevice ck).updCtx ck (fun c =>
            { c with sstate := code, steams := tks.length, spages := pages, halting := none, haltAt := none, drainAt := none })
          let s4 := match c.fault with | some f => s3.faultRun ck f | none => s3
          s4.passOn ck

/-- HARD_HALT_LIMIT (R365): a halt that has not completed within its limit ends in a forced reset. -/
def State.hardHaltLimit (s : State) (ck : Nat) : State :=
  match (SMap.look s.ctxs ck).bind Ctx.haltAt with
  | some t => if t ≤ s.now then s.forceReset ck else s
  | none => s

/-! Slices (R319). -/

/-- The time slice of a front end, in ticks (R317). -/
def State.slice (s : State) (p : Nat) : Nat := 84000000 * field (s.csrGet (0x1020 + 0x100 * p)) 8 7

/-- A context's priority. -/
def State.prioOf (s : State) (ck : Nat) : Nat := ((SMap.look s.ctxs ck).map Ctx.prio).getD 0

/-- The contexts of a front end that have work. -/
def State.working (s : State) (p : Nat) : List Nat := (List.range 8).filter (fun n => s.live (8 * p + n) && s.hasWork (8 * p + n))

/-- The next holder (R319): highest priority, and among equals the next number after the previous holder, wrapping. -/
def State.nextHolder (s : State) (p : Nat) : Option Nat :=
  let ws := s.working p
  let top := (ws.map (fun n => s.prioOf (8 * p + n))).foldl max 0
  let start := match (s.fe p).prev with | some n => n + 1 | none => 0
  ((List.range 8).map (fun k => (start + k) % 8)).find? (fun n => ws.contains n && s.prioOf (8 * p + n) == top)

/-- The halted state of a faulted run is discarded when the context's next work starts (R261, R362, R363). -/
def State.dropFaulted (s : State) (ck : Nat) : State :=
  let st := ((SMap.look s.ctxs ck).map Ctx.sstate).getD 0
  if st = 3 ∨ st = 4 then
    (s.killGrids ck).updCtx ck (fun c => { c with sstate := 0, fault := none, recs := c.recs.map (fun r => { r with kind := 0 }) })
  else s

/-- A context takes the slice (R319, R362, R363). -/
def State.takeSlice (s : State) (p n : Nat) : State :=
  let ck := 8 * p + n
  let s1 := s.dropFaulted ck
  (s1.updCtx ck (fun c => { c with sstate := 0 })).updFe p (fun f => { f with holder := some n, sliceAt := s.now })

/-- A front end that starts nothing: off, or its interface in ERROR (R317, R333). -/
def State.feStopped (s : State) (p : Nat) : Bool := s.feMode p == 0 || (s.fe p).tdi == 3

/-- A drained or idle holder passes on, and the next holder takes the slice (R319, R365). -/
def State.settleSlice (s : State) (p : Nat) : State :=
  let s1 := match (s.fe p).holder with
    | none => s
    | some n =>
      let ck := 8 * p + n
      let busy := !(s.teamsAt ck .placed).isEmpty
      let drains := ((SMap.look s.ctxs ck).map (fun c => c.drainAt.isSome)).getD false
      let halts := ((SMap.look s.ctxs ck).map (fun c => c.halting.isSome)).getD false
      if halts then s
      else if drains && !busy then
        (s.updCtx ck (fun c => { c with sstate := 1, drainAt := none })).passOn ck
      else if s.quiesced p then s
      else if !s.hasWork ck && !busy then (s.updCtx ck (fun c => { c with drainAt := none })).passOn ck
      else s
  if (s1.fe p).holder.isSome || s1.feStopped p || s1.quiesced p then s1
  else match s1.nextHolder p with
    | some n => s1.takeSlice p n
    | none => s1

/-- Every front end looked at (R319). -/
def State.settleSlices (s : State) : State := (SMap.keys s.fes).foldl (fun s p => s.settleSlice p) s

/-- The holder must yield (R319): its slice has ended while another has work, or one of higher priority has work. -/
def State.mustYield (s : State) (p n : Nat) : Bool :=
  let others := (s.working p).filter (· ≠ n)
  !others.isEmpty && (decide ((s.fe p).sliceAt + s.slice p ≤ s.now)
    || others.any (fun m => decide (s.prioOf (8 * p + n) < s.prioOf (8 * p + m))))

/-- SLICE_END (R319, R365): the soft drain of the holder begins. -/
def State.sliceEnd (s : State) (p : Nat) : State :=
  match (s.fe p).holder with
  | none => s
  | some n =>
    let ck := 8 * p + n
    let c := (SMap.look s.ctxs ck).getD {}
    if !s.mustYield p n || s.quiesced p || c.drainAt.isSome || c.halting.isSome then s
    else s.updCtx ck (fun c => { c with drainAt := some (s.now + 84000 * (s.limits ck).1) })

/-- SOFT_DRAIN_DEADLINE (R365): the hard halt begins. -/
def State.softDrainDeadline (s : State) (ck : Nat) : State :=
  match (SMap.look s.ctxs ck).bind Ctx.drainAt with
  | some t => if t ≤ s.now then s.beginHalt ck 2 else s
  | none => s

/-! CONTEXT_RESTORE (R230, R258, R263, R294, R365). -/

/-- A halted team's cluster group goes back together with it, to one cluster that fits all of it (R258). -/
def State.restoreGroup (s : State) (tk : Nat) : Option State :=
  match SMap.look s.teams tk, s.gridOfTeam tk with
  | some t, some g =>
    let k := max g.cg 1
    let mine := s.teams.filter (fun e => e.2.grid == t.grid && e.2.idx / k == t.idx / k)
    let halted := mine.filter (fun e => e.2.at_ == .halted)
    let sibs := mine.filter (fun e => e.2.at_ == .placed)
    let cs := s.partCores (g.ctx / 8)
    let fitsOne := fun (e : Nat × Team) (c : Nat) => s.fits g c && s.receivesFit e.1 c
    let tables := fun c => s.tablesFit (halted.map Prod.fst) (c / 4)
    if halted.any (fun e => s.recBad g.ctx g e.2.idx) then some (s.saveFault tk)
    else if k = 1 then (s.planish (cs.filter (fun c => fitsOne (tk, t) c && s.tablesFit [tk] (c / 4)))).map (fun c => (s.freeRec g.ctx g t.idx).arriveTeam tk c)
    else
      (s.planish (cs.filter (fun c => c % 4 == 0 && tables c && sibs.all (fun e => e.2.core / 4 == c / 4)
          && halted.all (fun e => fitsOne e (c + e.2.idx % k))))).map
        (fun c =>
          let s1 := halted.foldl (fun s e => (s.freeRec g.ctx g e.2.idx).arriveTeam e.1 (c + e.2.idx % k)) s
          (mine.filter (fun e => e.2.isOver)).foldl (fun s e => s.updTeam e.1 (fun t => { t with core := c + e.2.idx % k })) s1)
  | _, _ => none

/-- A halted team goes on as `restoreGroup` says; every halted team of a co-resident grid goes back with it, or none does (R259). -/
def State.restoreUnit (s : State) (tk : Nat) : Option State :=
  match SMap.look s.teams tk, s.gridOfTeam tk with
  | some t, some g =>
    if !g.cores then s.restoreGroup tk
    else (s.recordOrder ((s.teams.filter (fun e => e.2.grid == t.grid && e.2.at_ == .halted)).map Prod.fst)).foldl
      (fun r k => r.bind (fun s =>
        if ((SMap.look s.teams k).map Team.at_) == some .halted && s.running g.ctx then s.restoreGroup k else some s)) (some s)
  | _, _ => none

/-- Segment cores of a grid found anew by planishing, one for each old one (R294). -/
def State.pickCores (s : State) (g : Grid) : List Nat → List Nat → Option (List (Nat × Nat))
  | _, [] => some []
  | used, c :: cs =>
    match s.planish ((s.partCores (g.ctx / 8)).filter (fun c => s.clusterUp (c / 4) && (s.coreOf c).seg.isNone && !s.holdsTeam c
        && s.slotRoom g c && !used.contains c)) with
    | some d => (s.pickCores g (used ++ [d]) cs).map (fun l => (c, d) :: l)
    | none => none

/-- A halted travelling grid goes on: its segments are pinned anew, its slots and rings as they were (R294). -/
def State.restoreTravel (s : State) (gk : Nat) (g : Grid) : Option State :=
  let olds := (s.saved.filter (fun e => e.1 / 4096 == gk)).map (fun e => e.1 % 4096)
  match s.teams.find? (fun e => e.2.grid == gk && e.2.at_ == .halted && s.recBad g.ctx g e.2.idx) with
  | some e => some (s.saveFault e.1)
  | none => (s.pickCores g [] olds).map (fun l =>
    let s1 := s.rehome (l.map (fun p => (keptCore gk p.1, p.2)))
    let s2 := l.foldl (fun (s : State) p =>
      match SMap.look s.saved (4096 * gk + p.1) with
      | some c =>
        let s1 := s.enterCore p.2 g.ctx
        let s2 := s1.updCore p.2 (fun k => { k with seg := c.seg, posted := c.posted, ovf := c.ovf, owed := c.owed, queue := [] })
        { (s2.loadExtents p.2 g (s2.rangesOf g.ctx g.ranges)) with saved := SMap.del s2.saved (4096 * gk + p.1) }
      | none => s) s1
    let s3 := s2.updGrid gk (fun g => { g with segs := SMap.mapV (fun _ (sg : Seg) => { sg with cores := sg.cores.map (movedTo l) }) g.segs })
    let tks := (s3.teams.filter (fun e => e.2.grid == gk && e.2.at_ == .halted)).map Prod.fst
    let s4 := tks.foldl (fun s tk => ((s.freeRec g.ctx g (((SMap.look s.teams tk).map Team.idx).getD 0)).updTeam tk
      (fun t => { t with at_ := .placed, core := movedTo l t.core })).goCycles tk) s3
    let s5 := l.foldl (fun (s : State) p =>
      ((SMap.keys s.warps).filter (fun wk => wk % 2 == 1 && wk / 2 / 64 == p.2)).foldl (fun s wk => s.reinject wk p.2) s) s4
    (s5.threads.filter (fun e => tks.contains (teamOfTh e.1) && e.2.inSlot && e.2.stat == .ready)).foldl (fun s e => s.placeReady e.1) s5)

/-- CONTEXT_RESTORE (R230, R263, R294, R365): the slice holder's halted teams go on, each on a core with capacity. -/
def State.contextRestore (s : State) (p : Nat) : State :=
  match (s.fe p).holder with
  | none => s
  | some n =>
    let ck := 8 * p + n
    if !s.mayStart ck || s.quiesced p then s
    else
      let s1 := (s.grids.filter (fun e => e.2.ctx == ck && e.2.travel && s.saved.any (fun q => q.1 / 4096 == e.1))).foldl
        (fun s e => (s.restoreTravel e.1 e.2).getD s) s
      (s1.recordOrder (s1.teamsAt ck .halted)).foldl (fun s tk =>
        match SMap.look s.teams tk, s.gridOfTeam tk with
        | some t, some g => if t.at_ = .halted && !g.travel && s.running ck then (s.restoreUnit tk).getD s else s
        | _, _ => s) s1

/-- A team just suspended in FJOIN: its work is saved and its record written; a page that is not writable forces a reset (R206, R363,
R364). -/
def State.settleSuspend (s : State) : State :=
  s.teams.foldl (fun s e =>
    match SMap.look s.teams e.1, s.gridOfTeam e.1 with
    | some t, some g =>
      let c := (SMap.look s.ctxs g.ctx).getD {}
      if t.at_ = .suspended && !c.recs.any (fun r => r.grid == g.num && r.team == t.idx && r.kind == 2) then
        let s1 := (s.teamWarps e.1).foldl (fun s wk => s.saveWarp wk) s
        let r := s1.writeRec g.ctx g t.idx 2
        if r.2 then r.1 else r.1.forceReset g.ctx
      else s
    | _, _ => s) s

/-! The hang detector (R303 to R306). -/

/-- The teams of a context that are on a core. -/
def State.residents (s : State) (ck : Nat) : List Nat := s.teamsAt ck .placed

/-- A barrier's phase that a thread waits for is not complete (R200, R303). -/
def State.phaseOpen (s : State) (level id th : Nat) (n : W32) : Bool := !phaseDone (s.barAt (s.barKeyOf level id th)).phase n

/-- What a thread of a waiting group waits for itself is still to come (R303). -/
def State.waitOpen (s : State) (g : Group) (th : Nat) : Bool :=
  match s.instrOf g, g.stall with
  | some (.bar f), .barrier =>
    (match s.arrivedAt th g.pc with
     | some n => s.phaseOpen (barLevel f) f.sel.toNat th n
     | none => s.guarded g th && (s.barAt (s.barKeyOf (barLevel f) f.sel.toNat th)).arrived.contains th)
  | some (.barwt f), .barrier => s.guarded g th && s.phaseOpen (barLevel f) f.sel.toNat th (s.vget th f.a.toNat)
  | some (.mbrd f), .mailbox => !((SMap.look s.mb (8 * s.partOfTeam g.team + f.sel.toNat)).map Mbox.inFull).getD false
  | some (.mbwr f), .mailbox => ((SMap.look s.mb (8 * s.partOfTeam g.team + f.sel.toNat)).map Mbox.outFull).getD false
      || s.ringBlocked (s.partOfTeam g.team)
  | some i, .token =>
    (scalarRegs ((lockShape i).reads ++ (lockShape i).writes)).any (fun r => (SMap.look s.sbusy (skey (s.wkOf th) r)).isSome)
  | _, .join => ((SMap.look s.threads th).bind Thread.rdv).isSome
      || ((SMap.look s.teams (teamOfTh th)).map (fun t => t.fjoined.contains th)).getD false
  | _, .depart => s.departWaits g th
  | _, .register => s.tokenWait g th
  | _, _ => false

/-- What an evicted thread waits for is still to come (R287, R303). -/
def State.evictOpen (s : State) (th : Nat) (w : EWait) : Bool :=
  match w with
  | .none => false
  | .barrier id n => s.phaseOpen 3 id th n
  | .sleep n => decide (n = 0)
  | .token => s.vbusy.any (fun e => e.1 / 256 == th && s.cores.any (fun c => c.2.posted.any (fun q => q.op == e.2)))

/-- A thread stands in a waiting state of R303 that has not ended: a group waits while one of its threads does. -/
def State.hangWait (s : State) (th : Nat) (t : Thread) : Bool :=
  match t.stat with
  | .exited => true
  | .grouped gid => ((SMap.look s.groups gid).map (fun g => g.threads.any (s.waitOpen g))).getD false
  | .asleep => t.sleepEnd.isNone
  | .held => s.warps.any (fun w => w.2.held.any (fun r => r.th == th))
  | .rtr => true
  | .parcel => s.flying.any (fun p => p.th == th)
  | .evicted => s.evictOpen th t.wait
  | _ => false

/-- The units that an operation's accesses queue at, numbered as SCRUB_READ numbers them (R388; assumption 111): channel groups from 0, L2
slices from 64, physical clusters' memories from 448. -/
def State.opUnits (s : State) (o : MemOp) : List Nat :=
  o.lanes.flatMap (fun l => match l.space with
    | .glob => [l.pa, l.pa2].flatMap (fun a => if a < 2 ^ 40 then [a / 2 ^ 34, 64 + s.homeSlice (s.partOfTeam (teamOfTh l.th)) a] else [])
    | .scr _ => [448 + s.physOf (o.core / 4)])

/-- The priority of the context that issued an operation. -/
def State.opPrio (s : State) (o : MemOp) : Nat := ((s.ctxOfWarp o.wk).map s.prioOf).getD 0

/-- An operation that only a scrub keeps from going on (R304, R388): at a unit whose scrub takes precedence it stands with the contexts of
lowest priority that have requests queued there. -/
def State.opHeldBack (s : State) (o : MemOp) : Bool :=
  s.scrubs.any (fun e => e.2.take) && (s.opUnits o).any (fun u =>
    ((SMap.look s.scrubs u).map Scrub.take).getD false
      && (s.ops.filter (fun e => (s.opUnits e.2).contains u)).all (fun e => decide (s.opPrio o ≤ s.opPrio e.2)))

/-- A cluster's issue is held back (R304): by the slew limiter after a grid barrier, by its admission to power, or by a level below
nominal. -/
def State.slowed (s : State) (c : Nat) : Bool :=
  (s.cluster c).slewed.isSome || decide ((s.cluster c).grant < 10) || (s.physAt (s.physOf c)).inrush != 0

/-- A thread that would be released by now is held back (R304): its wait is over, and its cluster is slowed. -/
def State.threadHeldBack (s : State) (th : Nat) (t : Thread) : Bool :=
  match t.stat with
  | .grouped gid => s.slowed (s.coreOfTh th / 4)
      && ((SMap.look s.groups gid).map (fun g => g.stall != .none && !g.threads.any (s.waitOpen g))).getD false
  | .ready => (s.physAt (s.physOf (s.coreOfTh th / 4))).inrush != 0
  | _ => false


/-- A message for a team that is not placed yet: it is delivered once that is, and until then nothing about it advances (R212). -/
def State.msgWaits (s : State) (m : Flight) : Bool :=
  (s.teamByIdx m.grid m.team).any (fun tk => ((SMap.look s.teams tk).map Team.at_) == some .unplaced)

/-- Something of a context can still advance (R303), what R304 holds back left out. -/
def State.canAdvance (s : State) (ck : Nat) : Bool :=
  let wks := s.ctxWarps ck
  let slow := s.ops.filter (fun e => wks.contains e.2.wk && s.opHeldBack e.2)
  let waits := fun (p : Parcel) => ((SMap.look s.threads p.th).map (fun t => t.stat == .evicted)).getD false
  s.eng.any (fun e => e.2.ctx == ck && !s.awaitsNotice e.1 e.2) || s.ops.any (fun e => wks.contains e.2.wk && !s.opHeldBack e.2)
    || s.pend.any (fun e => s.thIn ck e.2.th)
    || s.warps.any (fun e => wks.contains e.1 && e.2.entries.any (fun x => !slow.any (fun o => o.1 == x.op)))
    || s.forks.any (fun e => wks.contains e.2.wk) || s.segreqs.any (fun e => e.2.ctx == ck)
    || s.msgs.any (fun m => ((SMap.look s.grids m.grid).map Grid.ctx) == some ck && !s.msgWaits m)
    || s.warps.any (fun e => wks.contains e.1 && s.redoing e.1)
    || s.cores.any (fun e => e.2.queue.any (fun p => s.thIn ck p.th && !waits p))
    || s.grids.any (fun e => e.2.ctx == ck && !e.2.done && e.2.segs.any (fun g => g.2.ring.any (fun p => !waits p)))

/-- A placement or a resumption is under way (R303): a team that may go onto a core finds one. -/
def State.placing (s : State) (ck : Nat) : Bool :=
  s.teams.any (fun e => s.teamIn ck e.1 && s.mayResume e.1 && (s.resumeCore e.1).isSome)
    || (s.mayStart ck && !s.quiesced (ck / 8) &&
        ((s.units ck).any (fun u => (s.placeUnit u (fun _ => true)).isSome)
          || (s.teamsAt ck .halted).any (fun tk => (s.restoreUnit tk).isSome)
          || s.grids.any (fun e => e.2.ctx == ck && e.2.travel && s.saved.any (fun q => q.1 / 4096 == e.1) && (s.restoreTravel e.1 e.2).isSome)))

/-- Inrush admission alone keeps a placement or a resumption from being under way (R304, R373). -/
def State.inrushHeld (s : State) (ck : Nat) : Bool :=
  !s.placing ck && s.phys.any (fun e => e.2.inrush != 0)
    && State.placing { s with phys := SMap.mapV (fun _ (p : Phys) => if p.inrush = 0 then p else { p with on := true, inrush := 0 }) s.phys } ck

/-- A thread of a context that waits or would be released is held back by what R304 lists, and so is what it waits for. -/
def State.throttled (s : State) (ck : Nat) : Bool :=
  s.threads.any (fun e => (s.residents ck).contains (teamOfTh e.1) && s.threadHeldBack e.1 e.2)
    || s.eng.any (fun e => e.2.ctx == ck && s.awaitsNotice e.1 e.2)
    || s.ops.any (fun e => (s.ctxWarps ck).contains e.2.wk && s.opHeldBack e.2)
    || s.inrushHeld ck

/-- A context is stalled now (R303); a thread that R304 holds back counts as waiting. -/
def State.stalled (s : State) (ck : Nat) : Bool :=
  let tks := s.residents ck
  if tks.isEmpty then
    (!(s.teamsAt ck .suspended).isEmpty || !(s.teamsAt ck .unplaced).isEmpty || !(s.teamsAt ck .retiring).isEmpty || !(s.teamsAt ck .halted).isEmpty)
      && !s.placing ck
  else !s.canAdvance ck && s.threads.all (fun e => !tks.contains (teamOfTh e.1) || s.hangWait e.1 e.2 || s.threadHeldBack e.1 e.2)

/-- A context that has just come back to its slice: its teams are about to be restored, and its counts stand as they were saved (R304). -/
def State.returning (s : State) (ck : Nat) : Bool := (s.residents ck).isEmpty && !(s.teamsAt ck .halted).isEmpty && s.placing ck

/-- Context cycles that pass up to a tick for the detector (R303): of the lowest cluster with a resident team, or 7 for each 10 ns. -/
def State.hangCycles (s : State) (ck dt : Nat) : Nat :=
  match (s.residents ck).filterMap (fun tk => (SMap.look s.teams tk).map (fun t => t.core / 4)) with
  | [] => (s.now + dt) / 840 * 7 - s.now / 840 * 7
  | c :: cs => let k := s.cluster (cs.foldl min c)
               k.cycles (s.now + dt) - k.cycles s.now

/-- Time passes for the detector of every slice holder (R303 to R305). -/
def State.hangTime (s : State) (dt : Nat) : State :=
  s.ctxs.foldl (fun s e =>
    if !s.running e.1 || s.returning e.1 then s
    else if !s.stalled e.1 then s.updCtx e.1 (fun c => { c with stall := 0, throt := 0 })
    else
      let n := s.hangCycles e.1 dt
      if s.throttled e.1 then s.updCtx e.1 (fun c => { c with throt := BitVec.ofNat 32 (min (c.throt.toNat + n) 0xFFFFFFFF) })
      else s.updCtx e.1 (fun c => { c with stall := BitVec.ofNat 32 (min (c.stall.toNat + n) 0xFFFFFFFF) })) s

/-- A run of stalled cycles has ended (R303). The counts of a context whose teams a switch has halted stay as they were saved (R304). -/
def State.hangReset (s : State) : State :=
  s.ctxs.foldl (fun s e => if (e.2.stall ≠ 0 ∨ e.2.throt ≠ 0) ∧ s.running e.1 ∧ !s.returning e.1 ∧ !s.stalled e.1 then
    s.updCtx e.1 (fun c => { c with stall := 0, throt := 0 }) else s) s

/-- One entry of the wait-for graph (R306). -/
def graphEntry (team b4 kind n : Nat) (rest : List Byte) : List Byte :=
  leBytes 4 team ++ leBytes 1 b4 ++ leBytes 1 kind ++ leBytes 2 n ++ (rest ++ List.replicate (8 - rest.length) 0)

/-- The entry of a wait for a message: the receive posted as an operation of a set (R306). -/
def State.recvEntry (s : State) (mine : Nat → Bool) : Option (Nat × List Byte) :=
  ((s.cores.flatMap (fun e => e.2.posted)).find? (fun q => mine q.op)).map (fun q =>
    (5, leBytes 2 q.tag.toNat ++ leBytes 1 (q.anySrc.toNat + 2 * q.anyTag.toNat) ++ [0] ++ leBytes 4 q.src.toNat))

/-- The kind of wait of a thread and what its entry says (R306). -/
def State.waitEntry (s : State) (th : Nat) (t : Thread) : Option (Nat × List Byte) :=
  let barrier := fun level id (n : W32) => (1, leBytes 1 level ++ leBytes 1 id ++ [0, 0] ++ leBytes 4 n.toNat)
  match t.stat with
  | .asleep => some (8, [])
  | .rtr => some (2, leBytes 4 0xFFFFFFFF ++ leBytes 4 (t.pc.toNat / 8))
  | .evicted =>
    (match t.wait with
     | .barrier id n => some (barrier 3 id n)
     | .sleep _ => some (8, [])
     | .token => s.recvEntry (fun op => s.vbusy.any (fun e => e.1 / 256 == th && e.2 == op))
     | .none => none)
  | .grouped gid =>
    (match SMap.look s.groups gid with
     | none => none
     | some g =>
       match s.instrOf g, g.stall with
       | some (.bar f), .barrier => some (barrier (barLevel f) f.sel.toNat
           ((s.arrivedAt th g.pc).getD (s.barAt (s.barKeyOf (barLevel f) f.sel.toNat th)).phase))
       | some (.barwt f), .barrier => some (barrier (barLevel f) f.sel.toNat (s.vget th f.a.toNat))
       | some (.mbrd f), .mailbox => some (4, [BitVec.ofNat 8 f.sel.toNat, 0])
       | some (.mbwr f), .mailbox => some (4, [BitVec.ofNat 8 f.sel.toNat, 1])
       | some i, .token =>
         (let rs := scalarRegs ((lockShape i).reads ++ (lockShape i).writes)
          match rs.find? (fun r => (SMap.look s.sbusy (skey t.wk r)).isSome) with
          | some r => some (3, [BitVec.ofNat 8 r, 0])
          | none => none)
       | some i, .register =>
         (let rs := laneRegs ((lockShape i).reads ++ (lockShape i).writes)
          s.recvEntry (fun op => rs.any (fun r => SMap.look s.vbusy (vkey th r) == some op)))
       | some _, .depart =>
         s.recvEntry (fun op => (List.range 32).any (fun r => laneBit (s.departMask g th) r && SMap.look s.vbusy (vkey th r) == some op))
       | _, .join =>
         (let m := ((t.rdv.bind (fun id => SMap.look s.rdvs id)).map Rdv.mask).getD 0xFFFFFFFF
          some (2, leBytes 4 m.toNat ++ leBytes 4 (g.pc.toNat / 8)))
       | _, _ => none)
  | _ => none

/-- The waits of a context's resident warps, threads that wait alike counted together (R306). -/
def State.warpEntries (s : State) (ck : Nat) : List (List Byte) :=
  let ws := (s.threads.filter (fun e => (s.residents ck).contains (teamOfTh e.1) && e.2.stat != .exited)).filterMap (fun e =>
    (s.waitEntry e.1 e.2).map (fun w => ((((SMap.look s.teams (teamOfTh e.1)).map Team.idx).getD 0, tidOf e.1 / 32, w))))
  ws.eraseDups.map (fun w => graphEntry w.1 w.2.1 w.2.2.1 (ws.filter (fun x => x == w)).length w.2.2.2)

/-- The incomplete barrier phases of a context (R200, R306). -/
def State.phaseEntries (s : State) (ck : Nat) : List (List Byte) :=
  s.bars.filterMap (fun e =>
    let level := e.1 / 16 % 4
    let span := e.1 / 64
    let tkOf := match level with
      | 0 => ((SMap.look s.warps span).map Warp.team)
      | 3 => (s.teams.find? (fun (t : Nat × Team) => t.2.grid == span)).map Prod.fst
      | _ => some span
    match tkOf with
    | none => none
    | some tk =>
      if e.2.arrived.isEmpty || !s.teamIn ck tk then none
      else
        let idx := fun k => ((SMap.look s.teams k).map Team.idx).getD 0
        let span_ := fun th => s.barSpan level th == span
        let missing := (s.threads.filter (fun (t : Nat × Thread) => t.2.stat != .exited && span_ t.1 && !e.2.arrived.contains t.1)).map (fun (t : Nat × Thread) => idx (teamOfTh t.1))
        let low := match missing with | [] => 0 | x :: xs => xs.foldl min x
        some (graphEntry (if level = 3 then 0 else idx tk) level 7 (e.1 % 16)
          (leBytes 2 (min (s.barExpected e.1) 65535) ++ leBytes 2 (min e.2.arrived.length 65535) ++ leBytes 4 low)))

/-- The wait-for graph (R306). -/
def State.waitGraph (s : State) (ck : Nat) : List Byte :=
  let c := (SMap.look s.ctxs ck).getD {}
  let fj := (s.teamsAt ck .suspended).filterMap (fun tk => (SMap.look s.teams tk).map (fun t => graphEntry t.idx 0 6 0 (leBytes 4 t.children)))
  let es := s.warpEntries ck ++ fj ++ s.phaseEntries ck
  leBytes 4 es.length ++ leBytes 4 c.stall.toNat ++ leBytes 4 c.throt.toNat ++ List.replicate 20 0 ++ es.flatten

/-- HANG (R225, R305, R306, R362): STALL has reached its threshold: the wait-for graph is written and the context hard-halted. -/
def State.hang (s : State) (ck : Nat) : State :=
  match SMap.look s.ctxs ck with
  | none => s
  | some c =>
    if !s.hangEn || decide (c.stall.toNat < 2 ^ s.hangExp) || !s.running ck then s
    else
      let f := s.free
      let th := ((s.threads.find? (fun e => s.thIn ck e.1 && e.2.stat != .exited)).map Prod.fst)
      let tk := (th.map teamOfTh).getD (((s.teamsAt ck .suspended ++ s.teamsAt ck .unplaced ++ s.teamsAt ck .retiring).head?).getD 0)
      let info : FaultInfo :=
        { tk := tk, code := 0x16, lane := (th.map laneOfTh).getD 0, warp := (th.map (fun t => tidOf t / 32)).getD 0
          team := ((SMap.look s.teams tk).map Team.idx).getD 0, info := f.1, pc := (th.map s.stopPoint).getD 0 &&& 0xFFFFFFFFFFFF, rec_ := none }
      let w := f.2.writeVirt ck (saveBase + 0x1000) (s.waitGraph ck)
      if !w.2 then w.1.forceReset ck
      else (w.1.updCtx ck (fun c => { c with fault := some info, gpages := ((s.waitGraph ck).length + 4095) / 4096 })).beginHalt ck 3

end Sys2Proof.Machine
end

