-- ==== Sys2Proof/Machine/Front.lean ====
section
/-!
DEFINITION. Front ends: access to their blocks, modes, contexts, graphs, triggers, runs, event rings, mailboxes, the per-context window
(R27, R232, R261, R315 to R327, R330, R331, R366).
-/
namespace Sys2Proof.Machine

/-! Access to a block (R315, R330, R333). `via` is 0 for the PF's copy, 1 for the VF with the T bit, 2 for the VF without it. -/

/-- SR-IOV TotalVFs (R315): 16, and 0 in assay hold (R393). -/
def State.totalVfs (s : State) : Nat := if s.mg.cause = 0 then 16 else 0

/-- A request to a block is served (R330, R333, R393). -/
def State.served (s : State) (p via : Nat) : Bool :=
  let f := s.fe p
  if via = 0 then f.tdi == 0
  else f.vf && decide (p < s.totalVfs) && !s.vfClear && (match f.tdi with | 0 => true | 1 => via == 2 | 2 => via == 1 | _ => false)

/-- FE_STATUS (R316). -/
def State.feBusy (s : State) (p : Nat) : Bool := !(s.working p).isEmpty

/-- FE_STATUS as a word (R316). -/
def State.feStatus (s : State) (p : Nat) : W64 :=
  let f := s.fe p
  BitVec.ofNat 64 ((s.feBusy p).toNat + 2 * (decide (f.tdi = 1 ∨ f.tdi = 2)).toNat + 4 * (f.queue.length % 256))

/-- CTX_STAT as a word (R316). -/
def State.ctxStat (s : State) (p : Nat) : W64 :=
  let mask := fun (h : Nat → Bool) => ((List.range 8).map (fun n => if h n then 2 ^ n else 0)).sum
  BitVec.ofNat 64 (mask (fun n => s.live (8 * p + n))
    + 2 ^ 8 * mask (fun n => s.live (8 * p + n) && ((SMap.look s.ctxs (8 * p + n)).map Ctx.det).getD false)
    + 2 ^ 16 * mask (fun n => s.live (8 * p + n) && s.hasWork (8 * p + n)) + 2 ^ 24 * (s.fe p).lastErr)

/-- An interface enters ERROR: every context is force-reset without save (R330). -/
def State.enterError (s : State) (p : Nat) : State :=
  (((List.range 8).filter (fun n => s.live (8 * p + n))).foldl (fun s n => s.forceReset (8 * p + n)) s).updFe p
    (fun f => { f with tdi := 3, secure := false })

/-! Virtual memory as the front end writes it (R27). -/

/-- Bytes put through a context's tables whatever their W bit. -/
def State.pokeVirt (s : State) (ck : Nat) : Nat → List Byte → State
  | _, [] => s
  | a, b :: bs =>
    match s.walk ck a with
    | .leaf e => ((s.setByte (e.phys a) b).l2Pass (e.phys a) true).pokeVirt ck (a + 1) bs
    | _ => s.pokeVirt ck (a + 1) bs

/-- The sections of an image are mapped: constant pages readable, data pages writable (R27). DESIGN CHOICE: an address in no
canonical place is not refused for that; its bits [47:12] are walked (assumption 142). -/
def State.sectionsMapped (s : State) (ck : Nat) (im : Image) : Bool :=
  let ok := fun (a n : Nat) (w : Bool) => n == 0 || (upFrom (a / 4096) ((a % 4096 + n + 4095) / 4096)).all (fun k =>
    match s.walk ck (4096 * k) with
    | .leaf e => if w then e.w else e.r
    | _ => false)
  ok im.cva.toNat im.consts.length false && ok im.dva.toNat im.data.length true

/-- The sections of an image copied to their addresses (R27). -/
def State.copySections (s : State) (ck : Nat) (im : Image) : State :=
  (s.pokeVirt ck im.cva.toNat im.consts).pokeVirt ck im.dva.toNat im.data

/-! Resident mode (R261, R327). -/

/-- The bytes of a kernel image in host memory: to the end of the last part that its header and entries name. DESIGN CHOICE:
RES_IMAGE gives no length (R24, assumption 139). -/
def State.imageSize (s : State) (a : Nat) : Option Nat :=
  match s.dmaRead a 64 with
  | none => none
  | some h =>
    let ents := blkField h 40 4
    let n := blkField h 44 2
    match s.dmaRead (a + ents) (64 * n) with
    | none => none
    | some eb =>
      let segs := (records n 64 eb).map (fun r => if blkField r 24 2 = 0 then 0 else blkField r 20 4 + 16 * blkField r 24 2)
      some (([64, blkField h 8 8 + blkField h 16 8, blkField h 24 4 + blkField h 28 4, blkField h 32 4 + blkField h 36 4, ents + 64 * n,
              blkField h 48 4 + blkField h 52 4] ++ segs).foldl max 0)

/-- A resident grid refused (R327). -/
def State.refuseResident (s : State) (p status : Nat) : State := s.doneRecord 0x0001 (8 * p) 0xFFFF 0 0 status 0

/-- The resident grid of a front end starts in context 0, or is refused (R27, R261, R327). DESIGN CHOICE: the sections are copied only where
the launch is accepted (assumption 141). -/
def State.startResident (s : State) (p : Nat) (rings : Bool) : State :=
  let f := s.fe p
  let ck := 8 * p
  match ((s.imageSize f.resImage.toNat).bind (fun n => s.dmaRead f.resImage.toNat n)).bind imageOf, s.dmaRead f.resRanges.toNat 384 with
  | none, _ => s.refuseResident p 4
  | some _, none => s.refuseResident p 2
  | some im, some rb =>
    let d := s.loadImage 0 im
    let img : Image := { d.2 with cva := f.resCbase, dva := f.resDbase }
    let ei := field f.resLaunch 32 16
    match rangeSetOf rb, img.entries[ei]? with
    | some rs, some e =>
      let slot := s.freeSlot ck
      let q : Req := { ctx := ck, index := 0, im := img, entry := ei, teams := field f.resLaunch 0 32, ranges := rs
                       stack := rs.find? ORange.stack, param := BitVec.ofNat 64 (slotVa slot) }
      if field f.resLaunch 48 16 ≠ 0 || !s.sectionsMapped ck img then s.refuseResident p 2
      else match s.readVirt ck f.resParam.toNat e.params with
        | none => s.refuseResident p 2
        | some ps =>
          match s.launchStatus q rings with
          | 0 =>
            let s1 := (((d.1.dropFaulted ck).copySections ck img).fillSlot ck slot ps)
            let r := s1.acceptGrid q e
            r.1.updFe p (fun f => { f with resGrid := some r.2, resIm := some img })
          | k => s.refuseResident p k
    | _, _ => s.refuseResident p 2

/-! FE_MODE (R317). -/

/-- The reserved bits of FE_MODE. -/
def feModeReserved (v : W64) : Bool := decide (field v 15 49 ≠ 0 ∨ field v 3 5 ≠ 0)

/-- A write of FE_MODE is ignored (R317). -/
def State.feModeBad (s : State) (p : Nat) (v : W64) : Bool :=
  let mode := field v 0 2
  let slice := field v 8 7
  feModeReserved v || decide (slice = 0 ∨ 100 < slice ∨ mode = 3) || (decide (mode ≠ s.feMode p) && s.feBusy p)
    || decide ((s.fe p).tdi = 1 ∨ (s.fe p).tdi = 2)
    || (decide (mode = 2) && (!s.live (8 * p) || (upFrom 1 7).any (fun n => s.live (8 * p + n))))

/-- FE_MODE written (R317, R327). -/
def State.feModeWrite (s : State) (p : Nat) (v : W64) (rings : Bool) : State :=
  if s.feModeBad p v then s.recordCfg
  else
    let mode := field v 0 2
    let s1 := s.csrSet (0x1020 + 0x100 * p) v
    let s2 := if mode = s.feMode p then s1 else s1.updFe p (fun f => { f with prev := none })
    let s3 := if mode = 0 then { s2 with graphs := SMap.keep (fun k _ => decide (k / 256 ≠ p)) s2.graphs } else s2
    if mode = 2 ∧ (s3.fe p).resGrid.isNone then s3.startResident p rings else s3

/-! Contexts (R318). -/

/-- LASTERR of the last CTX_CMD. -/
def State.ctxErr (s : State) (p k : Nat) : State := s.updFe p (fun f => { f with lastErr := k })

/-- CTX_CMD with OP 0 (R318). -/
def State.ctxCreate (s : State) (p : Nat) (pf : Bool) (v : W64) : State :=
  let n := field v 0 3
  let ck := 8 * p + n
  let level := field v 7 2
  if level = 3 ∨ (level = 2 ∧ !pf) then s.ctxErr p 3
  else if s.feMode p = 2 ∧ n ≠ 0 then s.ctxErr p 4
  else if s.live ck then s.ctxErr p 1
  else
    let c : Ctx := { root := v &&& 0xFFFFFFFFFFFFF000, level := level, prio := field v 5 2, det := v.getLsbD 4 }
    ({ s with ctxs := SMap.ins s.ctxs ck c, tabs := SMap.keep (fun k _ => decide (k / 2 ^ 48 ≠ ck)) s.tabs }).ctxErr p 0

/-- A context's queued triggers are abandoned, each with a RUN_DONE record (R318). -/
def State.abandonQueue (s : State) (ck : Nat) : State :=
  let p := ck / 8
  let mine := (s.fe p).queue.filter (fun t => t.ctx == ck)
  mine.foldl (fun s t => s.doneRecord 0x0002 ck 0xFFFF t.graph t.seq 6 0)
    (s.updFe p (fun f => { f with queue := f.queue.filter (fun t => t.ctx != ck) }))

/-- A context is gone: reset without save, its triggers abandoned (R318). -/
def State.dropCtx (s : State) (ck : Nat) : State :=
  let s1 := (s.forceReset ck).abandonQueue ck
  { s1 with ctxs := SMap.del s1.ctxs ck }

/-- CTX_CMD with OP 1 (R318). -/
def State.ctxDestroy (s : State) (p : Nat) (v : W64) : State :=
  let ck := 8 * p + field v 0 3
  if s.live ck then (s.dropCtx ck).ctxErr p 0 else s.ctxErr p 2

/-- CTX_CMD (R318). -/
def State.ctxCmd (s : State) (p : Nat) (pf : Bool) (v : W64) : State :=
  if field v 9 3 ≠ 0 then s.recordCfg
  else if v.getLsbD 3 then s.ctxDestroy p v
  else s.ctxCreate p pf v

/-! Graphs (R320). -/

/-- The key of a graph. -/
def graphKey (p g : Nat) : Nat := 256 * p + g

/-- GRAPH_CMD (R320, R325): ignored while a command is under way or the ring is blocked. -/
def State.graphCmd (s : State) (p : Nat) (v : W64) : State :=
  if field v 9 3 ≠ 0 then s.recordCfg
  else if (s.fe p).gcmd.isSome || s.ringBlocked p then s
  else s.updFe p (fun f => { f with gcmd := some { graph := field v 0 8, unload := v.getLsbD 8, image := v &&& 0xFFFFFFFFFFFFF000 } })

/-- GRAPH_STAT as a word (R316). -/
def State.graphStat (s : State) (p : Nat) : W64 := (s.fe p).gstat ||| (if (s.fe p).gcmd.isSome then 0x10000 else 0)

/-- A command ends with a status (R320). -/
def State.graphStatus (s : State) (p graph status : Nat) : State :=
  (s.updFe p (fun f => { f with gcmd := none, gstat := BitVec.ofNat 64 (graph + 256 * status) })).post p 0x0003 [(10, 1, graph), (16, 4, status)]

/-- GRAPH_DONE (R320): a load reads and validates the image, an unload frees the graph; `room` says whether scheduler memory has room. -/
def State.graphDone (s : State) (p : Nat) (room : Bool) : State :=
  match (s.fe p).gcmd with
  | none => s
  | some c =>
    let k := graphKey p c.graph
    if (s.fe p).queue.any (fun t => t.graph == c.graph) then s.graphStatus p c.graph 10
    else if c.unload then ({ s with graphs := SMap.del s.graphs k }).graphStatus p c.graph 0
    else
      match s.readGraph c.image.toNat with
      | .error e => s.graphStatus p c.graph e
      | .ok (s1, g) =>
        if room then ({ s1 with graphs := SMap.ins s1.graphs k g }).graphStatus p c.graph 0 else s.graphStatus p c.graph 7

/-! Triggers and runs (R322, R323). -/

/-- The sequence number after one (R322). -/
def nextSeq (x : W32) : W32 := if x = 0xFFFFFFFE then 0 else x + 1

/-- TRIGGER (R322). -/
def State.trigger (s : State) (p : Nat) (v : W64) : State :=
  let ck := 8 * p + field v 8 3
  let g := field v 0 8
  let drop := fun st => s.doneRecord 0x0002 ck 0xFFFF g 0xFFFFFFFF st 0
  if field v 11 53 ≠ 0 then s.recordCfg
  else if s.feMode p ≠ 1 ∨ (SMap.look s.graphs (graphKey p g)).isNone ∨ !s.live ck then drop 2
  else if 64 ≤ (s.fe p).queue.length then drop 8
  else s.updFe p (fun f => { f with queue := f.queue ++ [{ ctx := ck, graph := g, patch := f.trigPatch, seq := f.seq }], seq := nextSeq f.seq })

/-- A patch list (R323): node, size, offset and value of each entry; none where it cannot be read. -/
def State.readPatches (s : State) (a : Nat) : Option (List (Nat × Nat × Nat × Nat)) :=
  if a = 0 then some []
  else match s.dmaRead a 16 with
    | none => none
    | some h =>
      let n := blkField h 0 4
      if 65536 < n then none
      else (s.dmaRead (a + 16) (16 * n)).map (fun bs => (records n 16 bs).map (fun r =>
        (blkField r 0 2, blkByte r 2, blkField r 4 4, blkField r 8 8)))

/-- A patch names a node, a size and bytes inside its block (R323). -/
def patchOk (sizes : List Nat) (e : Nat × Nat × Nat × Nat) : Bool :=
  (e.2.1 == 1 || e.2.1 == 2 || e.2.1 == 4 || e.2.1 == 8) &&
    (match sizes[e.1]? with
     | some n => decide (e.2.2.1 + e.2.1 ≤ n)
     | none => false)

/-- The parameter bytes of a node's entry (R25). -/
def Graph.paramSize (g : Graph) (n : GNode) : Nat :=
  (((g.images[n.image]?).bind (fun im => im.entries[n.entry]?)).map Entry.params).getD 0

/-- The images that a graph's nodes run. -/
def Graph.used (g : Graph) : List Image := ((g.nodes.map GNode.image).eraseDups).filterMap (fun i => g.images[i]?)

/-- A context's slots filled with blocks, one after another; answers their numbers. -/
def State.fillSlots (s : State) (ck : Nat) : List (List Byte) → State × List Nat
  | [] => (s, [])
  | b :: bs =>
    let k := s.freeSlot ck
    let r := (s.fillSlot ck k b).fillSlots ck bs
    (r.1, k :: r.2)

/-- A page that the start of a run reads or writes stands on HOLD: the run waits (R357). -/
def State.runHeld (s : State) (ck : Nat) (g : Graph) : Bool :=
  g.nodes.any (fun n => s.virtHeld ck n.param.toNat (g.paramSize n))
    || g.used.any (fun im => s.virtHeld ck im.cva.toNat im.consts.length || s.virtHeld ck im.dva.toNat im.data.length)

/-- RUN_START (R27, R323): the context's oldest trigger, when its earlier runs have ended: the patch list, the copies and the
sections, or a refusal of the whole run. -/
def State.runStart (s : State) (ck : Nat) : State :=
  let p := ck / 8
  match (s.fe p).queue.find? (fun t => t.ctx == ck) with
  | none => s
  | some t =>
    if (SMap.look s.runs ck).isSome || !s.mayStart ck || s.feMode p ≠ 1 || s.ringBlocked p || s.quiesced p
        || (SMap.look s.graphs (graphKey p t.graph)).any (s.runHeld ck) then s
    else
      let s1 := s.updFe p (fun f => { f with queue := f.queue.filter (fun x => x.seq != t.seq) })
      let refuse := s1.doneRecord 0x0002 ck 0xFFFF t.graph t.seq 2 0
      match SMap.look s.graphs (graphKey p t.graph), s.readPatches t.patch.toNat with
      | some g, some ps =>
        let sizes := g.nodes.map g.paramSize
        (match allSome (g.nodes.map (fun n => s.readVirt ck n.param.toNat (g.paramSize n))) with
         | none => refuse
         | some blocks =>
           if !ps.all (patchOk sizes) || !g.used.all (s.sectionsMapped ck) then refuse
           else
             let patched := ps.foldl (fun bs e => bs.set e.1 (putAt ((bs[e.1]?).getD []) e.2.2.1 (leBytes e.2.1 e.2.2.2))) blocks
             let f := (g.used.foldl (fun s im => s.copySections ck im) s1).fillSlots ck patched
             { f.1 with runs := SMap.ins f.1.runs ck { trig := t, graph := g, nodes := g.nodes.map (fun _ => .waiting), slots := f.2 } })
      | _, _ => refuse

/-- A predecessor lets its successor launch (R323): retired with status 0, or on an EARLY edge every team started. -/
def State.predReady (s : State) (r : Run) (q : Nat × Bool) : Bool :=
  match r.nodeAt q.1 with
  | .ended k => k == 0
  | .launched gk => q.2 && s.teams.all (fun e => e.2.grid != gk || e.2.first.isSome)
  | .waiting => false

/-- What a node's launch asks for (R321). -/
def nodeReq (ck i : Nat) (r : Run) (n : GNode) (im : Image) : Req :=
  let rs := ((n.ranges.bind (fun k => r.graph.ranges[k]?)).getD [])
  { ctx := ck, index := n.image, im := im, entry := n.entry, teams := n.teams, ranges := rs, stack := rs.find? ORange.stack
    cor := n.cor, arep := n.arep, qdepth := n.qdepth, lslots := n.lslots, bmap := n.bmap, quiet := n.quiet
    param := BitVec.ofNat 64 (slotVa ((r.slots[i]?).getD 0)), node := some (ck, i) }

/-- NODE_LAUNCH (R323): the ready node of lowest index launches, or ends with its refusal. -/
def State.nodeLaunch (s : State) (ck : Nat) (rings : Bool) : State :=
  match SMap.look s.runs ck with
  | none => s
  | some r =>
    if !s.mayStart ck || s.ringBlocked (ck / 8) || s.quiesced (ck / 8) then s
    else
      match (List.range r.nodes.length).find? (fun i => r.nodeAt i == .waiting && (predsOf r.graph.nodes i).all (s.predReady r)) with
      | none => s
      | some i =>
        match r.graph.nodes[i]? with
        | none => s
        | some n =>
          match r.graph.images[n.image]? with
          | none => s.nodeEnds ck i 2 0
          | some im =>
            let q := nodeReq ck i r n im
            (match s.launchStatus q rings, im.entries[n.entry]? with
             | 0, some e =>
               let a := s.acceptGrid q e
               { a.1 with runs := SMap.upd a.1.runs ck (fun r => { r with nodes := r.nodes.set i (.launched a.2) }) }
             | 0, none => s.nodeEnds ck i 2 0
             | k, _ => s.nodeEnds ck i k 0)

/-! Rings and mailboxes (R325, R327). -/

/-- RING_BASE written (R316). -/
def State.ringBaseWrite (s : State) (k : Nat) (v : W64) : State :=
  if field v 0 12 ≠ 0 then s.recordCfg else s.setRing k { s.ring k with base := v }

/-- RING_CTL written (R325). -/
def State.ringCtlWrite (s : State) (k : Nat) (v : W64) : State :=
  let size := field v 0 5
  if field v 37 27 ≠ 0 ∨ field v 5 3 ≠ 0 ∨ size < 6 ∨ 20 < size then s.recordCfg
  else (s.setRing k { s.ring k with ctl := v }).drainRing k

/-- RING_HEAD written (R325): room in the ring. -/
def State.ringHeadWrite (s : State) (k : Nat) (v : W64) : State :=
  if field v 32 32 ≠ 0 then s.recordCfg else (s.setRing k { s.ring k with head := lo32 v }).drainRing k

/-- RING_INTERRUPT_TIMER (R325): CTIME after the first record since the last interrupt. -/
def State.ringTimer (s : State) (k : Nat) : State :=
  let r := s.ring k
  match r.firstAt with
  | some t => if r.ctime ≠ 0 ∧ t + 84000 * r.ctime ≤ s.now then s.setRing k r.raise else s
  | none => s

/-- MB_IN written (R327). -/
def State.mbInWrite (s : State) (p n : Nat) (v : W64) : State :=
  let b := s.mbox p n
  if b.inFull then s.setMbox p n { b with ovr := true } else s.setMbox p n { b with inW := v, inFull := true }

/-- MB_OUT read (R327): the word, and the flag is clear. -/
def State.mbOutRead (s : State) (p n : Nat) : State := s.setMbox p n { s.mbox p n with outFull := false }

/-- What a read of MB_OUT returns (R327). -/
def State.mbOutWord (s : State) (p n : Nat) : W64 := if (s.mbox p n).outFull then (s.mbox p n).outW else 0

/-- MB_STAT as a word (R327). -/
def State.mbStat (s : State) (p : Nat) : W64 :=
  let mask := fun (h : Mbox → Bool) => ((List.range 8).map (fun n => if h (s.mbox p n) then 2 ^ n else 0)).sum
  BitVec.ofNat 64 (mask Mbox.inFull + 2 ^ 8 * mask Mbox.outFull + 2 ^ 16 * mask Mbox.ovr)

/-- MB_STAT written (R327): ones in OVR clear. -/
def State.mbStatClear (s : State) (p : Nat) (v : W64) : State :=
  if field v 24 40 ≠ 0 then s.recordCfg
  else (List.range 8).foldl (fun s n => if v.getLsbD (16 + n) then s.setMbox p n { s.mbox p n with ovr := false } else s) s

/-! The per-context selectors (R232, R305, R318, R363, R366). -/

/-- A per-context selector read; unlisted ones read zero. -/
def Ctx.selGet (c : Ctx) (ck sel : Nat) : W64 :=
  if sel = 0 then c.handler
  else if sel = 1 then BitVec.ofNat 64 (c.spages % 2 ^ 32 + 2 ^ 32 * (c.steams % 2 ^ 16) + 2 ^ 48 * c.sstate)
  else if sel = 2 then BitVec.ofNat 64 (c.det.toNat + 2 * c.level + 16 * c.prio + 256 * (ck / 8))
  else if 0x10 ≤ sel ∧ sel < 0x14 then (c.watchA[sel - 0x10]?).getD 0
  else if 0x14 ≤ sel ∧ sel < 0x18 then (c.watchC[sel - 0x14]?).getD 0
  else if sel = 0x20 then pair c.stall c.throt
  else 0

/-- A write of WATCH_CTL clears HITS (R366). -/
def Ctx.setWatchCtl (c : Ctx) (n : Nat) (v : W64) : Ctx := { c with watchC := c.watchC.set n (v &&& 0x3F0F) }

/-- A per-context selector written: its new value, none where the write is ignored and recorded for its reserved bits (R11, R232, R366). -/
def Ctx.selPut (c : Ctx) (sel : Nat) (v : W64) : Option Ctx :=
  if sel = 0 then (if field v 48 16 ≠ 0 ∨ field v 1 2 ≠ 0 then none else some { c with handler := v })
  else if 0x10 ≤ sel ∧ sel < 0x14 then
    (if field v 48 16 ≠ 0 then none else some { c with watchA := c.watchA.set (sel - 0x10) v })
  else if 0x14 ≤ sel ∧ sel < 0x18 then
    (if field v 48 16 ≠ 0 ∨ field v 14 18 ≠ 0 ∨ field v 4 4 ≠ 0 then none else some (c.setWatchCtl (sel - 0x14) v))
  else some c

/-- A write of a per-context selector of a context (R11, R316). -/
def State.ctxSelWrite (s : State) (ck sel : Nat) (v : W64) : State :=
  match SMap.look s.ctxs ck with
  | none => s.recordCfg
  | some c =>
    match c.selPut sel v with
    | some c1 => { s with ctxs := SMap.ins s.ctxs ck c1 }
    | none => s.recordCfg

/-! The block (R316). -/

/-- A register that holds what was written, with bits that must be zero. -/
def State.fePlain (s : State) (p : Nat) (bad : Bool) (f : Fe → Fe) : State := if bad then s.recordCfg else s.updFe p f

/-- FE_RESIZE_LIM written (R330, R331). -/
def State.resizeLimWrite (s : State) (p : Nat) (v : W64) : State :=
  if (s.fe p).tdi = 1 ∨ (s.fe p).tdi = 2 then s.recordCfg
  else s.fePlain p (decide (field v 32 32 ≠ 0)) (fun f => { f with resizeLim := v })

/-- A register of a served block is written (R316). DEDUCED (log 108): the low four bits of TRIG_PATCH, which is 16-byte aligned, are
taken as reserved. -/
def State.blockWrite (s : State) (p : Nat) (pf rings : Bool) (off : Nat) (v : W64) : State :=
  if off = 0x0000 then s.feModeWrite p v rings
  else if off = 0x0010 then s.ctxCmd p pf v
  else if off = 0x0020 then s.ringBaseWrite p v
  else if off = 0x0028 then s.ringCtlWrite p v
  else if off = 0x0030 then s.ringHeadWrite p v
  else if off = 0x0040 then s.graphCmd p v
  else if off = 0x0050 then s.fePlain p (decide (field v 0 4 ≠ 0)) (fun f => { f with trigPatch := v })
  else if off = 0x0058 then s.trigger p v
  else if off = 0x0060 then s.updFe p (fun f => { f with resImage := v })
  else if off = 0x0068 then s.fePlain p (decide (field v 48 16 ≠ 0)) (fun f => { f with resLaunch := v })
  else if off = 0x0070 then s.updFe p (fun f => { f with resParam := v })
  else if off = 0x0078 then s.updFe p (fun f => { f with resRanges := v })
  else if off = 0x0080 then s.mbStatClear p v
  else if off = 0x0088 then s.updFe p (fun f => { f with resCbase := v })
  else if off = 0x0090 then s.updFe p (fun f => { f with resDbase := v })
  else if 0x0100 ≤ off ∧ off < 0x0180 ∧ off % 16 = 0 then s.mbInWrite p ((off - 0x100) / 16) v
  else if off = 0x0200 then s.resizeLimWrite p v
  else if 0x4000 ≤ off ∧ off < 0x8000 then s.ctxSelWrite (8 * p + (off - 0x4000) / 0x800) (off % 0x800 / 8) v
  else s

/-- A write to a front end's block (R315, R316, R330): a PF write of a frozen register moves the interface to ERROR. -/
def State.feWrite (s : State) (p via : Nat) (rings : Bool) (off : Nat) (v : W64) : State :=
  if s.served p via then s.blockWrite p (via == 0) rings off v
  else if via = 0 ∧ (off = 0x0000 ∨ off = 0x0200) then
    (if (s.fe p).tdi ≠ 3 then s.recordCfg.enterError p else s)
  else s

/-- What a read of a front end's block returns; none for Unsupported Request (R315, R316, R330). -/
def State.feRead (s : State) (p via off : Nat) : Option W64 :=
  let f := s.fe p
  if !s.served p via then (if via = 0 ∧ off = 0x0008 then some (s.feStatus p) else none)
  else some (
    if off = 0x0000 then s.csrGet (0x1020 + 0x100 * p)
    else if off = 0x0008 then s.feStatus p
    else if off = 0x0018 then s.ctxStat p
    else if off = 0x0020 then (s.ring p).base
    else if off = 0x0028 then (s.ring p).ctl
    else if off = 0x0030 then (s.ring p).head.setWidth 64
    else if off = 0x0038 then (s.ring p).tail.setWidth 64
    else if off = 0x0048 then s.graphStat p
    else if off = 0x0050 then f.trigPatch
    else if off = 0x0060 then f.resImage
    else if off = 0x0068 then f.resLaunch
    else if off = 0x0070 then f.resParam
    else if off = 0x0078 then f.resRanges
    else if off = 0x0080 then s.mbStat p
    else if off = 0x0088 then f.resCbase
    else if off = 0x0090 then f.resDbase
    else if 0x0108 ≤ off ∧ off < 0x0188 ∧ off % 16 = 8 then s.mbOutWord p ((off - 0x108) / 16)
    else if off = 0x0200 then f.resizeLim
    else if 0x4000 ≤ off ∧ off < 0x8000 then
      (match SMap.look s.ctxs (8 * p + (off - 0x4000) / 0x800) with
       | some c => c.selGet (8 * p + (off - 0x4000) / 0x800) (off % 0x800 / 8)
       | none => 0)
    else 0)

/-- The only read that changes the machine: MB_OUT (R327). -/
def State.feReadEffect (s : State) (p via off : Nat) : State :=
  if s.served p via && decide (0x0108 ≤ off ∧ off < 0x0188 ∧ off % 16 = 8) then s.mbOutRead p ((off - 0x108) / 16) else s

end Sys2Proof.Machine
end

