-- ==== Sys2Proof/Machine/Part.lean ====
section
/-!
DEFINITION. Partitions: their registers and direct writes, shared colours, erasure of channel groups, the resize protocol, and the
invalidate queue (R295, R332, R337 to R353, R358, R359, R361).
-/
namespace Sys2Proof.Machine

/-! Channel groups (R332, R337, R338). -/

/-- Erasures of a group. -/
def State.erasures (s : State) (g : Nat) : Nat := SMap.read 0 s.gens g

/-- A group is erased (R332): its generation advances, every sector of it reads zero with correct codes, the L2
holds none of it, and no write on its way to it is left. -/
def State.eraseGroup (s : State) (g : Nat) : State :=
  { s.l2Drop (fun k _ => k / 2 ^ 27 == g) with
           mem := SMap.keep (fun k _ => decide (k / 2 ^ 34 ≠ g)) s.mem
           bad := SMap.keep (fun k _ => decide (32 * k / 2 ^ 34 ≠ g)) s.bad
           heal := SMap.keep (fun k _ => decide (32 * k / 2 ^ 34 ≠ g)) s.heal
           tabs := SMap.keep (fun k _ => decide (k % 2 ^ 48 / 2 ^ 34 ≠ g)) s.tabs
           pend := SMap.keep (fun _ p => decide (p.pa / 2 ^ 34 ≠ g)) s.pend
           ops := SMap.keep (fun _ o => !(o.held && o.lanes.all (fun l => l.space == .glob && l.pa / 2 ^ 34 == g))) s.ops
           gens := SMap.write 0 s.gens g (s.erasures g + 1) }

/-- A group's next generation has been used since the last completed scrub pass: it stays out of the pool (R332). -/
def State.groupHeld (s : State) (g : Nat) : Bool := decide (15 ≤ s.erasures g - SMap.read 0 s.genBase g)

/-- The bits of a mask. -/
def bitList (x : W64) : List Nat := (List.range 64).filter (fun k => x.getLsbD k)

/-- Groups erased one by one. -/
def State.eraseGroups (s : State) (x : W64) : State := (bitList x).foldl (fun s g => s.eraseGroup g) s

/-! Shared colours (R345). -/

/-- The partitions that hold a colour, ascending. -/
def State.sharers (s : State) (c : Nat) : List Nat := (List.range 16).filter (fun p => (s.partColour p).getLsbD c)

/-- The 16 ways of a colour divided anew among its sharers (R345). -/
def State.divideWays (s : State) (c : Nat) : State :=
  let ps := s.sharers c
  let n := max ps.length 1
  let q0 := SMap.keep (fun k _ => decide (k / 16 ≠ c)) s.quota
  State.l2Trim { s with quota := (ps.zip (List.range ps.length)).foldl (fun (m : SMap Nat) e =>
      SMap.ins m (16 * c + e.1) (16 / n + (if e.2 < 16 % n then 1 else 0))) q0 } c

/-- Colours whose sharers changed are divided anew. -/
def State.divideChanged (s old : State) : State :=
  (List.range 64).foldl (fun s c => if s.sharers c = old.sharers c then s else s.divideWays c) s

/-- QUOTA_REBALANCE (R345): `gains` and `losses` are what the shadow tags estimate for each sharer of a colour; one way moves where the
largest gain exceeds the smallest loss, once in each millisecond of %wall. -/
def State.rebalance (s : State) (c : Nat) (gains losses : List Nat) : State :=
  let ps := s.sharers c
  let ms := s.wall / 1000000
  if ps.length < 2 || decide (ms ≤ SMap.read 0 s.movedAt c) then s
  else
    let s := { s with movedAt := SMap.ins s.movedAt c ms }
    let gs := ps.zip gains
    let ls := (ps.zip losses).filter (fun e => decide (2 < SMap.read 0 s.quota (16 * c + e.1)))
    let best := gs.foldl (fun (b : Option (Nat × Nat)) e => match b with | none => some e | some x => if x.2 < e.2 then some e else some x) none
    let worst := ls.foldl (fun (b : Option (Nat × Nat)) e => match b with | none => some e | some x => if e.2 < x.2 then some e else some x) none
    match best, worst with
    | some g, some l =>
      if l.2 < g.2 ∧ g.1 ≠ l.1 then
        let q := fun p => SMap.read 0 s.quota (16 * c + p)
        ({ s with quota := SMap.ins (SMap.ins s.quota (16 * c + g.1) (q g.1 + 1)) (16 * c + l.1) (q l.1 - 1) }).l2Trim c
      else s
    | _, _ => s

/-! Partition registers (R342 to R344). -/

/-- PART_BOUND as it reads (R343). -/
def State.partBound (s : State) (p : Nat) : W64 :=
  let cl := upFrom (s.partBase p) (s.partLimit p - s.partBase p)
  let co := bitList (s.partColour p)
  let secs := (cl.map s.clusSector ++ co.flatMap colourSectors).eraseDups
  let dies := (cl.map (fun c => c / 256) ++ co.map (fun c => c / 16) ++ (bitList (s.partChan p)).map (fun g => g / 16)).eraseDups
  BitVec.ofNat 64 (s.partPorts p + (secs.map (fun k => 2 ^ (16 + k))).sum + (dies.map (fun d => 2 ^ (28 + d))).sum)

/-- A partition register as it reads. -/
def State.partRead (s : State) (p r : Nat) : W64 := if r = 3 then s.partBound p else s.csrGet (0x1000 + 0x100 * p + r)

/-- A range that R342 allows. -/
def rangeOk (base limit : Nat) : Bool :=
  base == limit || (decide (base % 8 = 0 ∧ limit % 8 = 0) && decide (base + 8 ≤ limit ∧ limit ≤ 1024))

/-- Two partitions' clusters overlap. -/
def rangesOverlap (a b c d : Nat) : Bool := decide (a < d ∧ c < b)

/-- A partition with clusters holds a channel group and a colour (R342). -/
def State.partSound (s : State) (p : Nat) : Bool :=
  s.partBase p == s.partLimit p || (s.partChan p != 0 && s.partColour p != 0)

/-- Every resource is held by one partition at most, a colour by eight (R337, R341). -/
def State.sharingOk (s : State) : Bool :=
  let ps := List.range 16
  ps.all (fun p => ps.all (fun q => p == q ||
    (!rangesOverlap (s.partBase p) (s.partLimit p) (s.partBase q) (s.partLimit q)
      && s.partChan p &&& s.partChan q == 0 && decide (s.partPorts p &&& s.partPorts q = 0))))
  && (List.range 64).all (fun c => decide ((s.sharers c).length ≤ 8))

/-- A physical memory address that the pool does not give out: groups held back under R332. -/
def State.gainsHeld (s old : State) (p : Nat) : Bool :=
  (bitList (s.partChan p &&& ~~~(old.partChan p))).any old.groupHeld

/-- A partition's life budget, signed milli-rs (R412). -/
def State.budget (s : State) (p : Nat) : Int := (s.csrGet (0x1010 + 0x100 * p)).toInt

/-- The budget changed by an amount, saturating (R410). -/
def State.payBudget (s : State) (p : Nat) (d : Int) : State :=
  s.csrSet (0x1010 + 0x100 * p) (BitVec.ofInt 64 (max (-(2 ^ 63 - 1)) (min (2 ^ 63 - 1) (s.budget p + d))))

/-- Reserved milli-rs of a partition released (R411, R412). -/
def State.unreserve (s : State) (p n : Nat) : State :=
  s.csrSet (0x1011 + 0x100 * p) (BitVec.ofNat 64 ((s.csrGet (0x1011 + 0x100 * p)).toNat - n))

/-- A cluster's lease ends and its slot is free (R379, R411): the rest of its reservation is released, at a boundary at once, else from the
next boundary on (R412). -/
def State.endLease (s : State) (c : Nat) (atBoundary : Bool) : State :=
  let k := s.cluster c
  match k.lease with
  | none => s
  | some l =>
    let s1 := { s with clusters := SMap.ins s.clusters c { k with lease := none, slot := false } }
    if atBoundary then s1.unreserve l.part l.res
    else { s1 with relDue := SMap.ins s1.relDue l.part (SMap.read 0 s1.relDue l.part + l.res) }

/-- The next 16-slot boundary of the pattern, which comes every 16 master cycles (R4, R371). -/
def slotBoundary (t : Nat) : Nat := (t + 1199) / 1200 * 1200

/-- A logical cluster's level, in effect from the next 16-slot boundary on (R4, R371). -/
def State.setLevel (s : State) (c level : Nat) : State :=
  let k := s.cluster c
  let at_ := slotBoundary s.now
  let q := if s.now < k.cycAt then { k with level := level }
           else { k with cyc := k.cycles at_, cycAt := at_, was := k.level, level := level }
  { s with clusters := SMap.ins s.clusters c q }

/-- A service cluster of the free pool loses its power (R373); its interval's charge stands until the boundary (R411). -/
def State.powerFree (s : State) (c : Nat) : State :=
  if (s.partOf c).isSome then s
  else
    let s1 := (s.setLevel c 0).updPhys (s.physOf c) (fun p => { p with on := false, inrush := 0, riseAt := none })
    { s1 with clusters := SMap.upd s1.clusters c (fun k => { k with next := 0, bid := 0, slewed := none }) }

/-- A departing cluster is scrubbed (R341, R348): its cores' L1s, deques, extent tables, queues and its locks. -/
def State.scrubCluster (s : State) (c : Nat) : State :=
  let cs := upFrom (4 * c) 4
  let s1 := cs.foldl (fun s k => s.updCore k (fun _ => {})) s
  { s1 with l1 := SMap.keep (fun k _ => decide (k / 2 ^ 45 / 4 ≠ c)) s1.l1
            scr := SMap.keep (fun k _ => decide (k / 2 ^ 18 % 2 = 0 ∨ k / 2 ^ 18 / 2 / 4 ≠ c)) s1.scr
            clusters := SMap.upd (s1.endLease c false).clusters c (fun k => { k with locks := [], claims := [] })
            relDue := (s1.endLease c false).relDue }

/-- What leaves partition `p` between two states of the registers: its clusters scrubbed and its groups erased, but for those of `keep`. -/
def State.releaseLeft (s old : State) (p : Nat) (keep : W64) : State :=
  let gone := (upFrom (old.partBase p) (old.partLimit p - old.partBase p)).filter (fun c => !s.partHolds p c)
  let s1 := gone.foldl (fun s c => s.scrubCluster c) s
  (gone.foldl (fun s c => s.powerFree c) s1).eraseGroups (old.partChan p &&& ~~~(s.partChan p) &&& ~~~keep)

/-- The reserved bits of a partition register (R342 to R344). -/
def partReserved (r : Nat) (v : W64) : Bool :=
  match r with
  | 0 => decide (field v 27 37 ≠ 0 ∨ field v 10 6 ≠ 0)
  | 3 => decide (field v 32 32 ≠ 0)
  | 4 => decide (field v 36 28 ≠ 0)
  | _ => false

/-- The bits a write of a partition register sets; the others are read-only. -/
def State.partValue (s : State) (p r : Nat) (v : W64) : W64 :=
  match r with
  | 3 => v &&& 0xFFFF
  | 4 => (v &&& 0xFFFFFFFF) ||| (s.csrGet (0x1004 + 0x100 * p) &&& 0xF00000000)
  | _ => v

/-- A direct write of a partition register (R341 to R344). -/
def State.partWrite (s : State) (p r : Nat) (v : W64) : State :=
  let s1 := s.csrSet (0x1000 + 0x100 * p + r) (s.partValue p r v)
  let idle := !(List.range 8).any (fun n => s.live (8 * p + n)) && s.feMode p == 0 && s.rsz.isNone && (s.fe p).tdi == 0
  if partReserved r v || !idle || !rangeOk (s1.partBase p) (s1.partLimit p) || !s1.partSound p || !s1.sharingOk || s1.gainsHeld s p then
    s.recordCfg
  else
    let s2 := if r = 0 && v != s.csrGet (0x1000 + 0x100 * p) then { s1 with slewOfs := SMap.del s1.slewOfs p } else s1
    (((s2.releaseLeft s p 0).l2LeaveColours p).divideChanged s)

/-! The resize descriptor (R346, R347, R349). -/

/-- RESIZE_STAT (R346). -/
def State.resizeStat (s : State) (p : Nat) : W64 :=
  let st := match s.rsz with | some r => if r.part = p then r.state else 0 | none => 0
  (SMap.look s.rstat p).getD 0 ||| BitVec.ofNat 64 st

/-- RESIZE_DONE (R350), and the outcome in RESIZE_STAT. -/
def State.resizeEnds (s : State) (r : Resize) (outcome cause fe seg : Nat) : State :=
  let w := BitVec.ofNat 64 (16 * outcome + 256 * cause + 65536 * fe + 2 ^ 24 * seg)
  let old := (SMap.look s.rstat r.part).getD 0
  let busy := cause = 1 ∧ s.rsz.any (fun q => q.part == r.part)
  let s1 := if busy then s
            else { s with rstat := SMap.ins s.rstat r.part (if outcome = 1 then (old &&& 0x3FFFFFF00) ||| 0x10 else w) }
  let n := s1.partLimit r.part - s1.partBase r.part
  let fs : List RecField := [(8, 1, r.part), (9, 1, outcome), (10, 1, cause), (11, 1, fe), (12, 2, seg), (14, 2, n),
    (16, 4, (s.now - r.at_) / 84000), (20, 8, r.tag.toNat)]
  let ps := ((r.part :: r.ents.map REnt.part).eraseDups).filter (fun p => decide (p < 16) && s1.feMode p != 0)
  ps.foldl (fun s p => s.post p 0x0020 fs) (s1.post 16 0x0020 fs)

/-- Teams halted for a resize go on where they were, as teams that come onto a core do (R212, R271, R348). -/
def State.undoHalts (s : State) (r : Resize) : State :=
  r.moved.foldl (fun (s : State) tk =>
    match SMap.look s.teams tk, s.gridOfTeam tk with
    | some t, some g =>
      if t.at_ = .halted then
        ((((s.enterCore t.core g.ctx).liftReceives tk).updTeam tk (fun t => { t with at_ := .placed })).goCycles tk).landReceives tk t.core
      else s
    | _, _ => s) s

/-- A descriptor's 128 bytes, from host memory, or from the writing context's as a load of its reads them (R346, R355). -/
def State.readDesc (s : State) (r : Resize) : Option (List Byte) :=
  if r.host then s.dmaRead r.addr 128 else s.childRead r.ctx r.addr 128

/-- TAG of a descriptor, 0 where it cannot be read (R347, R350). -/
def State.tagOf (s : State) (r : Resize) : W64 := BitVec.ofNat 64 (((s.readDesc r).map (fun b => blkField b 8 8)).getD 0)

/-- A refusal (R348, R349): every halt is undone and no register changes. -/
def State.refuseResize (s : State) (r : Resize) (cause fe seg : Nat) : State :=
  ({ s.undoHalts r with rsz := none }).resizeEnds (if r.state = 1 then { r with tag := s.tagOf r } else r) 2 cause fe seg

/-- RESIZE_REQUEST and RESIZE_CANCEL (R346, R348, R349): a write of RESIZE_CTL of partition `p`, from the PF with a host address, or from
a context with a virtual one. -/
def State.resizeCtl (s : State) (p : Nat) (host : Bool) (ctx level : Nat) (v : W64) : State :=
  let op := field v 0 2
  let r : Resize := { part := p, state := 1, addr := field v 7 41 * 128, host := host, ctx := ctx, level := level, ents := [], dl := 0
                      tag := 0, at_ := s.now, since := 0, moved := [], invs := 0, colours := false }
  if field v 48 16 ≠ 0 ∨ field v 2 5 ≠ 0 ∨ 2 ≤ op then s.recordCfg
  else if op = 0 then
    (match s.rsz with
     | some _ => s.resizeEnds { r with tag := s.tagOf r } 2 1 0 0
     | none => { s with rsz := some r, rstat := SMap.del s.rstat p })
  else
    match s.rsz with
    | some q => if q.state ≤ 2 ∧ q.part = p then s.refuseResize q 10 0 0 else s.recordCfg
    | none => s.recordCfg

/-- One entry of a descriptor; none where its reserved bits are set. -/
def entOf (b : List Byte) : Option REnt :=
  let fl := blkByte b 1
  let w := blkField b 4 4
  if 4 ≤ fl ∨ w / 2 ^ 27 ≠ 0 ∨ w / 2 ^ 10 % 2 ^ 6 ≠ 0 then none
  else some { part := blkByte b 0, diss := decide (fl % 2 = 1), keep := decide (fl / 2 = 1), ports := blkField b 2 2, base := w % 1024,
              limit := w / 2 ^ 16 % 2048, chan := BitVec.ofNat 64 (blkField b 8 8), colour := BitVec.ofNat 64 (blkField b 16 8) }

/-- A descriptor's entries, deadline and tag; none where it is malformed by itself (R347, R349 cause 2). -/
def descEntries (b : List Byte) : Option (List REnt × Nat × W64) :=
  let n := blkByte b 0
  let dl := blkField b 4 4
  if n = 0 ∨ 4 < n ∨ !zerosAt b 1 3 ∨ !zerosAt b 16 16 ∨ !zerosAt b (32 + 24 * n) (96 - 24 * n) ∨ 1000000 < dl then none
  else (allSome ((records n 24 (b.drop 32)).map entOf)).map (fun es =>
    (es, if dl = 0 then 2000 else dl, BitVec.ofNat 64 (blkField b 8 8)))

/-- An entry's four registers. -/
def State.applyEnt (s : State) (e : REnt) : State :=
  let a := 0x1000 + 0x100 * e.part
  let rng := BitVec.ofNat 64 (e.base + 2 ^ 16 * e.limit)
  let s0 := if rng = s.csrGet a then s else { s with slewOfs := SMap.del s.slewOfs e.part }
  (((s0.csrSet a rng).csrSet (a + 1) e.chan).csrSet (a + 2) e.colour).csrSet (a + 3) (BitVec.ofNat 64 e.ports)

/-- The registers as the entries leave them. -/
def State.applyEnts (s : State) (es : List REnt) : State := es.foldl (fun s e => s.applyEnt e) s

/-- The groups of dissolved partitions that pass to another entry with their contents (R332, R347). -/
def State.keptGroups (s : State) (es : List REnt) : W64 :=
  (es.filter REnt.keep).foldl (fun x e =>
    x ||| (s.partChan e.part &&& (es.filter (fun d => !d.diss)).foldl (fun y d => y ||| d.chan) 0)) 0

/-- FE_MODE.CONF of a front end (R317). -/
def State.conf (s : State) (p : Nat) : Bool := (s.csrGet (0x1020 + 0x100 * p)).getLsbD 2

/-- Cause 2 of R349: a descriptor that breaks the rules of resources. -/
def State.resizeInvalid (s : State) (p : Nat) (es : List REnt) : Bool :=
  let t := s.applyEnts es
  let ps := es.map REnt.part
  ps.any (fun q => decide (15 < q)) || decide (ps.eraseDups.length ≠ ps.length) || ps.head? != some p
    || es.any (fun e => !rangeOk e.base e.limit || !t.partSound e.part)
    || es.any (fun e => e.diss && !(e.base == 0 && e.limit == 0 && e.chan == 0 && e.colour == 0 && e.ports == 0))
    || es.any (fun e => e.keep && (!e.diss || s.conf e.part
        || es.any (fun d => !d.diss && d.chan &&& s.partChan e.part != 0 && s.conf d.part)))
    || !t.sharingOk

/-- An entry gains a group that is held back from the pool (R332). -/
def State.gainsBack (s : State) (es : List REnt) : Bool :=
  es.any (fun e => (bitList (e.chan &&& ~~~(s.partChan e.part))).any (fun g =>
    s.groupHeld g && (List.range 16).all (fun q => !(s.partChan q).getLsbD g)))

/-- A level-1 context wrote the request (R349). -/
def Resize.tenant (r : Resize) : Bool := decide (r.level = 1) && !r.host

/-- Cause 3: a level-1 writer names another partition or gains a resource that is not in the free pool (R332, R349). -/
def State.resizePrivilege (s : State) (r : Resize) (es : List REnt) : Bool :=
  r.tenant && (es.any (fun e => e.part != r.part) || s.gainsBack es || es.any (fun e =>
    let others := (List.range 16).filter (· ≠ e.part)
    (bitList (e.colour &&& ~~~(s.partColour e.part))).any (fun c => others.any (fun q => (s.partColour q).getLsbD c))))

/-- Cause 4: the front end whose interface is locked or running and whose limits the new range breaks (R331, R349). -/
def State.resizeLimits (s : State) (es : List REnt) : Option Nat :=
  (es.find? (fun e =>
    let f := s.fe e.part
    let n := e.limit - e.base
    decide (f.tdi = 1 ∨ f.tdi = 2) && decide (n < field f.resizeLim 0 16 ∨ field f.resizeLim 16 16 < n))).map REnt.part

/-- The groups that the resize takes from every involved partition (R349). -/
def State.removedGroups (s : State) (es : List REnt) : W64 :=
  let before := es.foldl (fun x e => x ||| s.partChan e.part) 0
  before &&& ~~~(es.foldl (fun x e => x ||| e.chan) 0)

/-- The pages that the tables of a context below one hold (R354): address and length of each leaf. -/
def State.leavesFrom (s : State) (ck : Nat) : List (Nat × Bool) → Nat → List Nat → List (Nat × Nat)
  | [], _, _ => []
  | (lo, leafOk) :: ls, table, idx =>
    idx.flatMap (fun i =>
      let a := table + 8 * i
      let e := s.tabEntry ck a ls.isEmpty
      let pa := e / 4096 % 2 ^ 36 * 4096
      if !s.physOk (ck / 8) a || e / 2 ^ 48 != 0 || e / 32 % 128 != 0 || e % 2 == 0 then []
      else if ls.isEmpty || e / 2 % 2 == 1 then (if leafOk && pa % 2 ^ lo == 0 then [(pa, 2 ^ lo)] else [])
      else s.leavesFrom ck ls pa (upFrom 0 512))

/-- The pages of a context's save area (R355, R363): what its tables map in the save window, whose level-1 entries are the last two. -/
def State.savePages (s : State) (ck : Nat) : List (Nat × Nat) := s.leavesFrom ck walkLevels (s.rootOf ck) [510, 511]

/-- Cause 9: a removed group holds an installed extent, a cached translation, a save area, an overflow ring or a queued node's completion
bitmap of an involved context (R295, R349). -/
def State.resizeMemory (s : State) (es : List REnt) : Bool :=
  let rem := s.removedGroups es
  let inRem := fun (pa : Nat) => decide (pa < 2 ^ 40) && rem.getLsbD (pa / 2 ^ 34)
  let cks := (es.filter (fun e => !e.diss)).flatMap (fun e => (List.range 8).map (fun n => 8 * e.part + n))
  let page := fun ck va => match s.walk ck va with | .leaf x => inRem (x.phys va) | _ => false
  let inExt := fun (x : Extent) => inRem x.pa || inRem (x.pa + x.len - 1)
  let bits := fun ck (n : GNode) => match n.bmap with
    | some a => (upFrom 0 ((n.teams + 7) / 8)).any (fun k => page ck (a.toNat + k))
    | none => false
  rem != 0 && cks.any (fun ck =>
    s.cores.any (fun c => c.2.ctx == some ck && c.2.exts.any inExt)
      || s.grids.any (fun g => g.2.ctx == ck && !g.2.done && g.2.exts.any inExt)
      || (s.savePages ck).any (fun x => inRem x.1 || inRem (x.1 + x.2 - 1))
      || (match SMap.look s.runs ck with
          | some r => (r.graph.nodes.zip r.nodes).any (fun q => q.2 == .waiting && bits ck q.1)
          | none => false)
      || (s.fe (ck / 8)).queue.any (fun t => t.ctx == ck && (SMap.look s.graphs (graphKey (ck / 8) t.graph)).any (fun g => g.nodes.any (bits ck)))
      || s.grids.any (fun g => g.2.ctx == ck && !g.2.done && g.2.segs.any (fun sg =>
          (upFrom 0 ((sg.2.ringBase.toNat % 4096 + 1056 * (32 * g.2.warps * g.2.nteam) + 4095) / 4096)).any (fun k =>
            page ck (sg.2.ringBase.toNat + 4096 * k)))))

/-! QUIESCING (R295, R348, R349). -/

/-- Cause 5: the lowest dissolving front end with a live context, a queued trigger or a held record (R349, R397). -/
def State.resizeFrontEnd (s : State) (es : List REnt) : Option Nat :=
  (List.range 16).find? (fun p => es.any (fun e => e.diss && e.part == p) &&
    ((List.range 8).any (fun n => s.live (8 * p + n)) || !(s.fe p).queue.isEmpty || !(s.ring p).held.isEmpty))

/-- Cause 7: the lowest front end with a segment on a departing core for which no core of the new range is free, and that segment: what
departs itself leaves its cores free (R295, R349, R397). -/
def State.resizeTravel (s : State) (es : List REnt) : Option (Nat × Nat) :=
  let gone := s.departing es
  (List.range 16).findSome? (fun p => (es.find? (fun e => e.part == p)).bind (fun e =>
    let free := ((upFrom (4 * e.base) (4 * (e.limit - e.base))).filter (fun c => !(s.cluster (c / 4)).dark
      && (gone.contains (c / 4) || ((s.coreOf c).seg.isNone && !s.holdsTeam c)))).length
    let need := (s.cores.filter (fun c => s.partHolds e.part (c.1 / 4) && gone.contains (c.1 / 4) && c.2.seg.isSome)).filterMap
      (fun c => c.2.seg.map Prod.snd)
    (need[free]?).map (fun seg => (p, seg))))

/-- Cause 8: the lowest front end with a co-resident grid that would not fit the new range (R259, R349, R397). -/
def State.resizeCoresident (s : State) (es : List REnt) : Option Nat :=
  let t := s.applyEnts es
  (List.range 16).find? (fun p => s.grids.any (fun g => g.2.cores && !g.2.done && g.2.ctx / 8 == p && es.any (fun e => e.part == p) &&
    decide (t.capacity (g.2.ctx / 8) { code := 0, warps := g.2.warps, cg := g.2.cg, nv := g.2.nv, ns := g.2.ns, scratch := g.2.scratch,
                                        params := 0, travel := false, det := false, segs := [] } < g.2.nteam)))

/-- A pre-emption of a context is in progress. -/
def State.leaving (s : State) (ck : Nat) : Bool := ((SMap.look s.ctxs ck).map (fun c => c.halting.isSome || c.drainAt.isSome)).getD false

/-- RESIZE_QUIESCING (R325, R348, R349, R353): once the front end's ring leaves it queued no more, the descriptor is read and checked, a page
of it on HOLD waited for; then the involved front ends stop launching and the teams on departing clusters stop, but for those of a context
whose pre-emption is in progress and completes first. -/
def State.resizeQuiesce (s : State) : State :=
  match s.rsz with
  | none => s
  | some r =>
    if r.state ≠ 1 || s.ringBlocked r.part || (r.host && s.ringBlocked 16) || (!r.host && s.virtHeld r.ctx r.addr 128) then s
    else
      let r0 := { r with tag := s.tagOf r }
      match (s.readDesc r).bind descEntries with
      | none => s.refuseResize r0 2 0 0
      | some (es, dl, tag) =>
        let r1 := { r with ents := es, dl := dl, tag := tag }
        if s.resizeInvalid r.part es || (s.gainsBack es && !r.tenant) then s.refuseResize r1 2 0 0
        else if s.resizePrivilege r es then s.refuseResize r1 3 0 0
        else match s.resizeLimits es with
          | some fe => s.refuseResize r1 4 fe 0
          | none =>
            if s.resizeMemory es then s.refuseResize r1 9 0 0
            else
              let gone := s.departing es
              let tks := (s.teams.filter (fun e => e.2.at_ == .placed && gone.contains (e.2.core / 4)
                && !((SMap.look s.grids e.2.grid).map Grid.travel).getD false
                && !(s.gridOfTeam e.1).any (fun g => s.leaving g.ctx))).map Prod.fst
              let s1 := tks.foldl (fun (s : State) tk => (s.stopCycles tk).updTeam tk (fun t => { t with at_ := .halted })) s
              { s1 with rsz := some { r1 with state := 2, since := s.now, moved := tks } }

/-- A team stopped for a resize has nothing left that runs to completion; its context sends no CPYR (R193, R349 cause 6). -/
def State.moveReady (s : State) (tk : Nat) : Bool :=
  !s.ops.any (fun e => teamOfTh ((e.2.lanes.head?.map LaneAcc.th).getD 0) == tk && !e.2.lanes.isEmpty && !e.2.saved
      && e.2.kind != .pref && e.2.kind != .linv)
    && !s.pend.any (fun e => teamOfTh e.2.th == tk)
    && !s.eng.any (fun e => teamOfTh e.2.th == tk && decide (e.2.core < 4096) && !e.2.saved)
    && !s.eng.any (fun e => e.2.kind == 8 && (s.gridOfTeam tk).any (fun g => g.ctx == e.2.ctx))

/-- The halted teams that still wait for the move. -/
def State.resizeTeams (s : State) (r : Resize) : List Nat :=
  r.moved.filter (fun tk => ((SMap.look s.teams tk).map Team.at_) == some .halted)

/-! A cluster's teams (R259, R405, R408). -/

/-- The ordinary teams placed on a logical cluster. -/
def State.clusTeams (s : State) (c : Nat) : List Nat :=
  (s.teams.filter (fun e => e.2.core / 4 == c && e.2.at_ == .placed && !((SMap.look s.grids e.2.grid).map Grid.travel).getD false)).map Prod.fst

/-- The contexts with a team of a co-resident grid on a cluster (R259, R405). -/
def State.coresOn (s : State) (c : Nat) : List Nat :=
  ((s.clusTeams c).filterMap (fun tk => (s.gridOfTeam tk).bind (fun g => if g.cores then some g.ctx else none))).eraseDups

/-- The teams that a swap of a cluster halts: its own, and every team of a context with a co-resident team on it (R259). -/
def State.swapSet (s : State) (c : Nat) : List Nat :=
  ((s.clusTeams c) ++ (s.coresOn c).flatMap (fun ck => s.teamsAt ck .placed)).eraseDups.filter
    (fun tk => !((s.gridOfTeam tk).map Grid.travel).getD false)

/-- A cluster's teams can complete their halt (R193, R365). -/
def State.swapReady (s : State) (c : Nat) : Bool :=
  (s.swapSet c).all (fun tk => s.moveReady tk &&
    ((s.gridOfTeam tk).bind (fun g => SMap.look s.ctxs g.ctx)).any (fun x => x.halting.isNone))

/-- Cause 6: the lowest involved front end with a halt that has not completed (R193, R349, R353, R397): of a team on a departing cluster, of a
context whose pre-emption was in progress, or of a billet call of cause 2, which counts as any halt of QUIESCING (R409). -/
def State.resizeHalts (s : State) (r : Resize) : Option Nat :=
  (List.range 16).find? (fun p => r.ents.any (fun e => e.part == p) &&
    ((List.range 8).any (fun n => s.leaving (8 * p + n))
      || (s.resizeTeams r).any (fun tk => (s.gridOfTeam tk).any (fun g => g.ctx / 8 == p) && !s.moveReady tk)
      || s.calls.any (fun q => q.begun && q.base == 2 && s.partOf q.clus == some p && !s.swapReady q.clus)))

/-- The lowest cause of QUIESCING that holds, with FE and SEG (R349, R397). -/
def State.resizeBlock (s : State) (r : Resize) : Option (Nat × Nat × Nat) :=
  match s.resizeFrontEnd r.ents, s.resizeHalts r, s.resizeTravel r.ents, s.resizeCoresident r.ents with
  | some fe, _, _, _ => some (5, fe, 0)
  | none, some fe, _, _ => some (6, fe, 0)
  | none, none, some x, _ => some (7, x.1, x.2)
  | none, none, none, some fe => some (8, fe, 0)
  | none, none, none, none => none

/-- RESIZE_MIGRATING (R348, R397): every check passes and every halt has completed; the teams' work is saved. A resize whose checks failed at
DEADLINE has been refused then. -/
def State.resizeMigrate (s : State) : State :=
  match s.rsz with
  | none => s
  | some r =>
    if r.state ≠ 2 || (s.resizeBlock r).isSome then s
    else
      let ms := s.resizeTeams r
      let bump := fun (s : State) tk => (s.teamWarps tk).foldl (fun (s : State) wk => s.updWarp wk (fun w => { w with gen := (w.gen + 1) % 16 })) s
      let s1 := ms.foldl (fun s tk => (bump s tk).haltTeam tk) s
      { s1 with rsz := some { r with state := 3, moved := ms } }

/-- RESIZE_DEADLINE (R349, R397): a check still fails at DEADLINE. -/
def State.resizeDeadline (s : State) : State :=
  match s.rsz with
  | some r =>
    if r.state ≠ 2 || s.now < r.since + 84000 * r.dl then s
    else (match s.resizeBlock r with
      | some (c, fe, seg) => s.refuseResize r c fe seg
      | none => s)
  | none => s

/-! MIGRATING to RUNNING (R295, R332, R348, R351). -/

/-- A core that gives its segment up. -/
def CoreSt.bare (c : CoreSt) : CoreSt := { c with seg := none, posted := [], ovf := [], owed := [], queue := [], arrivals := [] }

/-- Segment cores of some clusters, with what each holds. -/
def State.segsOn (s : State) (gone : List Nat) : List (Nat × CoreSt) := s.cores.filter (fun c => c.2.seg.isSome && gone.contains (c.1 / 4))

/-- Segments leave their cores; what belongs to one stands under a number of its own meanwhile (R295). -/
def State.liftSegments (s : State) (olds : List (Nat × CoreSt)) : State :=
  olds.foldl (fun s e =>
    match e.2.seg with
    | none => s
    | some (gk, _) => (s.rehome [(e.1, keptCore gk e.1)]).updCore e.1 CoreSt.bare) s

/-- A lifted segment is pinned on a core, with its slots, queue, receives and scratchpad; teams it is the entry of go with it (R295). -/
def State.landSegment (s : State) (gk : Nat) (g : Grid) (seg : Nat) (old : Nat × CoreSt) (c : Nat) : State :=
  let m := fun k => if k = old.1 then c else k
  let o := old.2
  let s1 := ((s.rehome [(keptCore gk old.1, c)]).enterCore c g.ctx).updCore c (fun k =>
    { k with seg := o.seg, posted := o.posted, ovf := o.ovf, owed := o.owed, queue := o.queue.map (fun p => { p with dst := c }), arrivals := o.arrivals })
  let s2 := (s1.updSeg gk seg (fun sg => { sg with cores := sg.cores.map m })).loadExtents c g (s.rangesOf g.ctx g.ranges)
  let tks := (s2.teams.filter (fun t => t.2.grid == gk && t.2.core == old.1 && t.2.at_ == .placed)).map Prod.fst
  let s3 := tks.foldl (fun (s : State) tk => (((s.stopCycles tk).updTeam tk (fun t => { t with core := c }))).goCycles tk) s2
  { s3 with flying := s3.flying.map (fun p => if p.dst = old.1 then { p with dst := c } else p) }

/-- Lifted segments are pinned again on cores of their partition that hold none, on powered ones first (R295, R373); a segment for which no
core is free stays where it was. -/
def State.landSegments (s : State) (olds : List (Nat × CoreSt)) : State :=
  olds.foldl (fun s e =>
    match e.2.seg with
    | none => s
    | some (gk, seg) =>
      match SMap.look s.grids gk with
      | none => s
      | some g =>
        let free := (s.partCores (g.ctx / 8)).filter (fun c => (s.coreOf c).seg.isNone && !s.holdsTeam c)
        s.landSegment gk g seg e (((s.planish (free.filter (fun c => s.clusterUp (c / 4)))) <|> s.planish free).getD e.1)) s

/-- Segments on some clusters move to other cores of their partition (R295). -/
def State.moveSegments (s : State) (gone : List Nat) : State := (s.liftSegments (s.segsOn gone)).landSegments (s.segsOn gone)

/-- A dissolved partition's front end keeps its registers with MODE 0 (R347); the next boundary adds its budget to the survivor's (R410, R412). -/
def State.dissolve (s : State) (p to_ : Nat) : State :=
  let v := s.csrGet (0x1020 + 0x100 * p)
  let s1 := s.csrSet (0x1020 + 0x100 * p) (v &&& ~~~(3#64))
  { s1 with merges := s1.merges ++ [(p, to_)], graphs := SMap.keep (fun k _ => decide (k / 256 ≠ p)) s1.graphs }

/-- RESIZE_REMAPPING (R295, R300, R332, R348): the registers are written, departing clusters are emptied and scrubbed, their segments and the
halted teams go to cores of the new range, and groups that leave are erased. -/
def State.resizeRemap (s : State) : State :=
  match s.rsz with
  | none => s
  | some r =>
    if r.state ≠ 3 then s
    else
      let gone := s.departing r.ents
      let kept := s.keptGroups r.ents
      let segs := s.segsOn gone
      let s1 := (gone.flatMap (fun c => upFrom (4 * c) 4)).foldl (fun s c => s.leaveCore c) ((s.applyEnts r.ents).liftSegments segs)
      let s2 := gone.foldl (fun s c => (s.scrubCluster c).powerFree c) s1
      let s4 := r.moved.foldl (fun s tk =>
        if ((SMap.look s.teams tk).map Team.at_) = some .halted then (s.restoreUnit tk).getD s else s) (s2.landSegments segs)
      let s5 := r.ents.foldl (fun s1 e => s1.eraseGroups (s.partChan e.part &&& ~~~e.chan &&& ~~~kept)) s4
      let to_ := ((r.ents.find? (fun e => !e.diss)).map REnt.part).getD r.part
      let s6 := (r.ents.filter REnt.diss).foldl (fun s e => s.dissolve e.part to_) s5
      let col := r.ents.any (fun e => s.partColour e.part != e.colour)
      { s6.divideChanged s with rsz := some { r with state := 4, colours := col } }

/-- RESIZE_REHASHING (R351): a colour set has changed, and the dual-home window opens: an access moves the line it finds. -/
def State.resizeRehash (s : State) : State :=
  match s.rsz with
  | some r => if r.state = 4 ∧ r.colours then { s with rsz := some { r with state := 5 } } else s
  | none => s

/-- The extents that a test names are stale, and grids keep none of them for cores to come (R348, R356, R359). -/
def State.staleAll (s : State) (hit : Nat → Extent → Bool) : State :=
  { s with grids := SMap.mapV (fun _ (g : Grid) => { g with exts := g.exts.filter (fun e => !hit g.ctx e) }) s.grids
           cores := SMap.mapV (fun _ (c : CoreSt) => match c.ctx with
      | some ck => { c with exts := c.exts.map (fun e => if hit ck e then { e with stale := true } else e) }
      | none => c) s.cores }

/-- A parameter slot's extent, which no invalidation touches (R428). -/
def Extent.isSlot (e : Extent) : Bool := inParamWindow e.va

/-- RESIZE_SHOOTDOWN (R348, R351, R398): the rehash walk is complete, and every extent of every involved context is marked. -/
def State.resizeShootdown (s : State) : State :=
  match s.rsz with
  | some r =>
    if (r.state = 4 ∧ !r.colours) ∨ r.state = 5 then
      { (if r.state = 5 then s.l2Walk r.ents else s).staleAll (fun ck e => r.ents.any (fun x => x.part == ck / 8) && !e.isSlot) with
        rsz := some { r with state := 6, invs := s.invDone + s.invQ.length + (if s.invRun.isSome then 1 else 0) } }
    else s
  | none => s

/-- Nothing in flight uses a stale extent that a test names (R359). -/
def State.staleDrained (s : State) (hit : Nat → Extent → Bool) : Bool :=
  s.cores.all (fun c => match c.2.ctx with
    | some ck => c.2.exts.all (fun e => !(e.stale && hit ck e) || !s.extentBusy c.1 e)
    | none => true)

/-- The stale extents that a test names are dropped (R359). -/
def State.dropStale (s : State) (hit : Nat → Extent → Bool) : State :=
  { s with cores := SMap.mapV (fun _ (c : CoreSt) => match c.ctx with
      | some ck => { c with exts := c.exts.filter (fun e => !(e.stale && hit ck e)) }
      | none => c) s.cores }

/-- RESIZE_DONE (R348, R350, R353): the shootdown is acknowledged; GEN advances and launches resume. -/
def State.resizeDone (s : State) : State :=
  match s.rsz with
  | none => s
  | some r =>
    let hit := fun ck (_ : Extent) => r.ents.any (fun x => x.part == ck / 8)
    if r.state ≠ 6 || decide (s.invDone < r.invs) || !s.staleDrained hit then s
    else
      let bump := fun (s : State) (e : REnt) =>
        let a := 0x1004 + 0x100 * e.part
        let v := s.csrGet a
        s.csrSet a ((v &&& 0xFFFFFFFF) ||| BitVec.ofNat 64 ((field v 32 4 + 1) % 16 * 2 ^ 32))
      ({ r.ents.foldl bump (s.dropStale hit) with rsz := none }).resizeEnds r 1 0 0 0

/-! Invalidation (R358, R359). -/

/-- INV_QUEUE written (R358): from the PF with a host address, or from a context with a virtual one. -/
def State.invWrite (s : State) (host : Bool) (ctx : Nat) (v : W64) : State :=
  if field v 48 16 ≠ 0 ∨ field v 0 5 ≠ 0 then s.recordCfg
  else if 64 ≤ s.invQ.length then { s with invDrop := (s.invDrop + 1) % 65536 }
  else { s with invQ := s.invQ ++ [{ addr := v.toNat, host := host, ctx := ctx }] }

/-- INV_STATUS (R359). -/
def State.invStatus (s : State) : W64 :=
  BitVec.ofNat 64 (s.invQ.length + 256 * s.invRun.isSome.toNat + 2 ^ 16 * (s.invDone % 65536) + 2 ^ 32 * (s.invDrop % 65536))

/-- INV_DONE (R359), counted. -/
def State.invRecord (s : State) (fe ctx status cores : Nat) (tag : W64) : State :=
  let fs : List RecField := [(8, 1, fe), (9, 1, ctx), (10, 1, status), (12, 4, cores), (16, 8, tag.toNat)]
  let s1 := ({ s with invDone := s.invDone + 1, invRun := none }).post 16 0x0033 fs
  if fe < 16 then s1.post fe 0x0033 fs else s1

/-- A command's fields hold what R358 allows. -/
def invOk (b : List Byte) : Bool :=
  decide (blkByte b 0 < 16 ∧ blkByte b 1 < 8 ∧ blkByte b 2 < 3 ∧ blkByte b 3 < 2) && zerosAt b 4 4 &&
    (if blkByte b 2 = 0 then decide (blkField b 8 8 % 4096 = 0 ∧ blkField b 16 8 % 4096 = 0 ∧ blkField b 16 8 ≠ 0)
     else decide (blkField b 8 8 = 0 ∧ blkField b 16 8 = 0))

/-- The extents a command names (R358, R428). -/
def InvRun.hits (r : InvRun) (ck : Nat) (e : Extent) : Bool :=
  decide (ck / 8 = r.fe) && !e.isSlot &&
    (r.kind == 2 || (decide (ck % 8 = r.ctx) && (r.kind == 1 || decide (e.va < r.start + r.len ∧ r.start < e.va + e.len))))

/-- The addresses a command names (R358). -/
def InvRun.names (r : InvRun) (ck va : Nat) : Bool :=
  decide (ck / 8 = r.fe) && (r.kind == 2 || (decide (ck % 8 = r.ctx) && (r.kind == 1 || decide (r.start ≤ va ∧ va < r.start + r.len))))

/-- A command's bytes (R358). -/
def State.invRead (s : State) (c : InvCmd) : Option (List Byte) := if c.host then s.dmaRead c.addr 32 else s.readVirt c.ctx c.addr 32

/-- What a well-formed command asks (R358). -/
def invOf (b : List Byte) : InvRun :=
  { fe := blkByte b 0, ctx := blkByte b 1, kind := blkByte b 2, start := blkField b 8 8, len := blkField b 16 8
    tag := BitVec.ofNat 64 (blkField b 24 8), cores := 0 }

/-- An invalidate that has been accepted, and not completed, names an address (R357): a walk for it is not installed before it completes. -/
def State.invPending (s : State) (ck va : Nat) : Bool :=
  s.invRun.any (fun r => r.names ck va)
    || s.invQ.any (fun c => (s.invRead c).any (fun b => invOk b && (invOf b).names ck va))

/-- The walk of a parked entry overlaps such an invalidate, and is repeated after it (R357). -/
def State.missWaits (s : State) (wk k : Nat) : Bool :=
  (s.rqOf wk)[k]?.any (fun e => (s.parkedWith wk e).head?.any (fun th =>
    (s.missVa wk (s.coreOfTh th) e).any (fun va => s.invPending (((s.gridOfTeam (teamOfTh th)).map Grid.ctx).getD 0) va)))

/-- Walks that wait on HOLD for an address that a command names are repeated once it completes (R357, R360). -/
def State.wakeHolds (s : State) (r : InvRun) : State :=
  { s with warps := SMap.mapV (fun wk (w : Warp) => { w with rq := w.rq.map (fun e =>
      match e.hold, (s.parkedWith wk e ++ e.ths).head? with
      | some va, some th => if r.names (((s.gridOfTeam (teamOfTh th)).map Grid.ctx).getD 0) va.toNat then { e with hold := none } else e
      | _, _ => e) }) s.warps }

/-- The table entries above level 4 that the graph engines hold of contexts a command names (R358, R359). -/
def State.dropTabs (s : State) (r : InvRun) : State :=
  { s with tabs := SMap.keep (fun k _ => !(decide (k / 2 ^ 48 / 8 = r.fe) && (r.kind == 2 || decide (k / 2 ^ 48 % 8 = r.ctx)))) s.tabs }

/-- INV_COMMAND_START (R325, R358, R359): the next command is read and its extents marked; one that is unreadable or malformed completes
with status 2. HINT 1 leaves the table entries that the graph engines hold. -/
def State.invStart (s : State) : State :=
  match s.invRun, s.invQ with
  | none, c :: cs =>
    if s.ringBlocked 16 then s
    else
      let s1 := { s with invQ := cs }
      match s.invRead c with
      | none => s1.invRecord 255 0 2 0 0
      | some b =>
        let r0 := invOf b
        if !invOk b then s1.invRecord r0.fe r0.ctx 2 0 r0.tag
        else
          let n := (s.cores.filter (fun e => match e.2.ctx with
            | some ck => decide (ck / 8 = r0.fe) && (r0.kind == 2 || decide (ck % 8 = r0.ctx))
            | none => false)).length
          if s.ringBlocked r0.fe then s
          else { (if blkByte b 3 = 1 then s1 else s1.dropTabs r0).staleAll r0.hits with invRun := some { r0 with cores := n } }
  | _, _ => s

/-- INV_DONE (R357, R359): every access through the marked extents has drained; they are dropped, the record is written, and walks that
waited on HOLD are repeated. -/
def State.invDoneNow (s : State) : State :=
  match s.invRun with
  | none => s
  | some r => if s.staleDrained r.hits then ((s.dropStale r.hits).wakeHolds r).invRecord r.fe r.ctx 0 r.cores r.tag else s

/-! HINT_MISMATCH (R361). -/

/-- The die that holds most of a declared range's pages, the lowest of several (R361). -/
def State.rangeDie (s : State) (ck : Nat) (r : ORange) : Nat :=
  let es := s.rangeExtents ck r
  mostOf (fun d => ((es.filter (fun e => e.pa / 2 ^ 38 == d)).map Extent.len).sum)
where
  /-- The die of which a count is largest. -/
  mostOf (f : Nat → Nat) : Nat := (List.range 4).foldl (fun b d => if f b < f d then d else b) 0

/-- A window's counts contradict a declared reuse, or its range lies on the wrong die (R361). -/
def HintCnt.bad (c : HintCnt) (reuse die : Nat) : Bool :=
  let n := c.lookups
  decide (65536 ≤ n) && ((decide (reuse ≤ 1) && decide (n ≤ 2 * c.misses)) || (reuse == 3 && decide (8 * c.misses ≤ n))
    || decide (3 * n < 4 * (n - (c.dies[die]?).getD 0)))

/-- The window of 10 ms of %wall (R265, R361; assumption 149). -/
def State.hintNow (s : State) : Nat := (s.now - s.resetAt) / 840000000

/-- HINT_MISMATCH (R361): at the end of a window of 10 ms, the record of a declared range that contradicts its hint, once in a run. -/
def State.hintMismatch (s : State) (gk range : Nat) : State :=
  let key := 16 * gk + range
  match SMap.look s.grids gk, SMap.look s.hintCnt key with
  | some g, some c =>
    (match g.ranges[range]? with
     | none => s
     | some r =>
       let home := s.rangeDie g.ctx r
       if s.hintNow ≤ s.hintWin || !c.bad r.reuse home || (SMap.look s.hinted key).isSome || g.done then s
       else
         let p := g.ctx / 8
         let graph := ((SMap.look s.runs g.ctx).map (fun r => r.trig.graph)).getD 0
         let node := match g.node with | some (_, i) => i | none => 0xFFFF
         ({ s with hinted := SMap.ins s.hinted key () }).post p 0x0030
           [(8, 1, p), (9, 1, g.ctx % 8), (10, 1, range), (11, 1, r.reuse), (12, 2, node), (14, 1, graph),
            (15, 1, State.rangeDie.mostOf (fun d => (c.dies[d]?).getD 0)), (16, 4, c.lookups), (20, 4, c.misses),
            (24, 4, c.lookups - (c.dies[home]?).getD 0)])
  | _, _ => s

/-- A window that has ended: every range is looked at, and the next window counts from nothing (R361). -/
def State.settleHints (s : State) : State :=
  if s.hintNow ≤ s.hintWin then s
  else { s.hintCnt.foldl (fun (s : State) e => s.hintMismatch (e.1 / 16) (e.1 % 16)) s with hintCnt := [], hintWin := s.hintNow }

end Sys2Proof.Machine
end

