-- ==== Sys2Proof/Machine/Power.lean ====
section
/-!
DEFINITION. Power: the regulator's failures, the power-interval boundary with its claims and its market, voltage rises, canaries,
thermal holds and the admission of power-ups (R4 to R6, R219, R369 to R382, R410, R411, R419, R420).
-/
namespace Sys2Proof.Machine

/-! What a cluster is (R3, R381, R382). -/

/-- The logical index that a physical cluster serves or is tested for, 0xFFFF where there is none (R382). -/
def State.logOf (s : State) (k : Nat) : Nat :=
  match (upFrom (256 * (k / 264)) 256).find? (fun c => s.physOf c == k) with
  | some c => c
  | none => ((s.calls.find? (fun q => q.phys == some k)).map Call.clus).getD 0xFFFF

/-- A physical cluster's sector of the module: 3 die + sector (R2). -/
def physSector (k : Nat) : Nat := 3 * (k / 264) + k % 264 / 88

/-- The voltage that a rise has reached, a VSET step every 16 master cycles (R419). -/
def State.vsetNow (s : State) (k : Nat) : Nat :=
  let p := s.physAt k
  match p.riseAt with
  | some t => min p.vto (p.vset + (s.now - t) / 1200)
  | none => p.vset

/-- A cluster capped or under a thermal hold (R219, R370, R6). -/
def Phys.capped (p : Phys) : Bool := decide (p.cap ≠ 0 ∨ p.hold ≠ 0)

/-- The supply that a level needs, as VSET: VMIN(L) + CANOFS (R369). -/
def Phys.volts (p : Phys) (l : Nat) : Nat := (p.vmin[l]?).getD 30 + p.canofs

/-- The highest level that the domain's 0.80 V supports (R369). -/
def Phys.supported (p : Phys) : Nat := ((upFrom 1 16).filter (fun l => decide (p.volts l ≤ 70))).foldl max 1

/-- The highest level that the supply, caps, holds and canaries leave a cluster (R6, R369, R370, R377). -/
def Phys.ceiling (p : Phys) : Nat :=
  min (min p.top p.supported) (min (match p.cap with | 0 => 16 | 3 => 5 | _ => 10) (match p.hold with | 0 => 16 | 1 => 10 | _ => 5))

/-- A power record (R382). -/
def State.powerRecord (s : State) (ty k b12 b16 : Nat) : State :=
  s.postPf ty [(8, 2, s.logOf k), (10, 2, physField k), (12, 1, b12), (13, 1, (s.physAt k).cap), (14, 2, s.vsetNow k), (16, 4, b16)]

/-- A powered logical cluster: served, not dark, its ramp ended (R3, R373). -/
def State.powered (s : State) (c : Nat) : Bool :=
  let p := s.physAt (s.physOf c)
  !(s.cluster c).dark && p.on && p.inrush == 0

/-! Charges (R378, R411). -/

/-- Cost of a boosted interval, milli-rs (R411). -/
def boostCost (l : Nat) : Nat :=
  match l with | 11 => 12 | 12 => 26 | 13 => 43 | 14 => 64 | 15 => 90 | 16 => 122 | _ => 0

/-- PERMIT_CAP of a cluster's die (R380). -/
def State.permitCap (s : State) (c : Nat) : Nat := field (s.csrGet (0x2001 + 0x100 * (c / 256))) 0 8

/-- SLOTS of a cluster's sector; larger values act as 88 (R380). -/
def State.slotsOf (s : State) (c : Nat) : Nat :=
  let z := s.clusSector c
  min (field (s.csrGet (0x2002 + 0x100 * (z / 3))) (8 * (z % 3)) 8) 88

/-- A cluster's measurements of the ending interval; unlisted ones drew nothing. -/
def measOf (ms : List Meas) (c : Nat) : Meas :=
  (ms.find? (fun m => m.clus == c)).getD { clus := c, amps := 0, temp := 20000, proj := [] }

/-- The permit counter after an interval (R378); a lowered cap clips it. -/
def Cluster.permitsAfter (k : Cluster) (active cap : Nat) : Nat :=
  min cap (if 10 < k.grant then (if k.fall = 0 then k.permits - (k.grant - 10) else k.permits)
           else if active = 0 then k.permits + 1 else k.permits)

/-- Issue-active and memory-stall cycles of a cluster's four cores in the interval (R376). -/
def State.clusActive (s : State) (c : Nat) : Nat := ((upFrom (4 * c) 4).map (fun k => (s.coreOf k).act)).sum
/-- See `clusActive`. -/
def State.clusStall (s : State) (c : Nat) : Nat := ((upFrom (4 * c) 4).map (fun k => (s.coreOf k).stl)).sum

/-- Step 1 of R375 for one cluster: permits, the budget's debit, the reservation, the lease's end and the fall (R378, R411). -/
def State.chargeInterval (s : State) (c active : Nat) : State :=
  let k := s.cluster c
  let per := k.permitsAfter active (s.permitCap c)
  let s1 := match k.payer with | some p => s.payBudget p (-(boostCost k.grant : Int)) | none => s
  let put := fun (s : State) (f : Cluster → Cluster) => { s with clusters := SMap.ins s.clusters c (f (s.cluster c)) }
  let paid := k.lease.isSome && decide (10 < k.grant)
  let s2 := put s1 (fun k => { k with permits := per, fall := k.fall - 1, boosted := k.boosted + paid.toNat,
                                      payer := if k.fall ≤ 1 then none else k.payer })
  match k.lease with
  | none => s2
  | some l =>
    let n := boostCost l.level
    let s3 := put (s2.unreserve l.part n) (fun k => { k with lease := some { l with left := l.left - 1, res := l.res - n } })
    if per = 0 ∧ 10 < k.grant then put (s3.endLease c true) (fun q => { q with fall := 2, fallAt := k.grant, payer := some l.part })
    else if l.left ≤ 1 then s3.endLease c true
    else s3

/-- Reservations released since the last boundary leave LIFE_RESERVED (R412). -/
def State.releaseDue (s : State) : State :=
  { s.relDue.foldl (fun s e => s.unreserve e.1 e.2) s with relDue := [] }

/-- Budgets of partitions dissolved since the last boundary pass to their survivors (R410, R412). -/
def State.mergeDue (s : State) : State :=
  { s.merges.foldl (fun (s : State) e => (s.payBudget e.2 (s.budget e.1)).payBudget e.1 (-(s.budget e.1))) s with merges := [] }

/-- The charges of step 1 of R375, once for each interval, before any refill (R378, R410, R411). -/
def State.boundaryCharges (s : State) : State :=
  if s.interval < s.charged then s
  else ({ (List.range 1024).foldl (fun (s : State) c => s.chargeInterval c (s.clusActive c)) s.releaseDue with charged := s.interval + 1 }).mergeDue

/-! The hourly refill (R410, R413). -/

/-- REF for one cluster and hour, milli-rs (R410). -/
def State.refHour (s : State) : Nat :=
  let t := s.csrGet 0x3030
  let days := max (field t 0 16) 365
  let margin := min (field t 16 8) 50
  280000000000 * 3600 * (100 - margin) / (100 * days * 86400)

/-- A partition's refill is due: an hour of module powered time has ended since the last (R410). -/
def State.refillDue (s : State) (p : Nat) : Bool := decide (SMap.read 0 s.hours p < s.powSec / 3600)

/-- The refill of a partition (R410), its record (R418). -/
def State.refill (s : State) (p : Nat) : State :=
  if !s.refillDue p then s
  else
    let cs := (upFrom (s.partBase p) (s.partLimit p - s.partBase p)).filter (fun c => !(s.cluster c).dark)
    let r : Int := (cs.map (fun c => (s.refHour : Int) - ((SMap.read 0 s.strain c / 1024 : Nat) : Int))).foldl (· + ·) 0
    let s1 := s.payBudget p r
    let w := BitVec.ofInt 64 r
    let fs : List RecField := [(13, 1, p), (16, 8, w.toNat)]
    let s2 := { s1 with hours := SMap.ins s1.hours p (s.powSec / 3600), refills := SMap.ins s1.refills p w
                        strain := SMap.keep (fun c _ => !cs.contains c) s1.strain }
    let s3 := s2.postPf 0x0075 fs
    if s3.feMode p ≠ 0 then s3.post p 0x0075 fs else s3

/-- Every due refill (R375 step 1); clusters outside every partition begin the new hour too. -/
def State.refillAll (s : State) : State :=
  if !(List.range 16).any s.refillDue then s
  else
    let s1 := (List.range 16).foldl (fun s p => s.refill p) s
    { s1 with strain := SMap.keep (fun c _ => (s1.partOf c).isSome) s1.strain }

/-! New caps (R375 step 2). -/

/-- Cool intervals counted for a thermal hold (R6), and the level a canary took (R377). -/
def State.newCaps (s : State) (c temp amps : Nat) : State :=
  s.updPhys (s.physOf c) (fun p => { p with
    amps := min amps 65535
    top := p.top - p.lower
    lower := 0
    cool := match p.hold with
      | 0 => 0
      | 1 => if temp ≤ 9500 then p.cool + 1 else 0
      | _ => if temp ≤ 10000 then p.cool + 1 else 0 })

/-! Claims (R219, R379, R420). -/

/-- Boosted clusters of a cluster's sector (R379). -/
def State.slotsHeld (s : State) (c : Nat) : Nat :=
  (s.clusters.filter (fun e => e.2.slot && s.clusSector e.1 == s.clusSector c)).length

/-- The status of a claim (R219), checked in the order of R219; a claim on a held lease keeps its slot (R420). -/
def State.claimStatus (s : State) (c : Nat) (q : Claim) : Nat :=
  let k := s.cluster c
  let p := q.ctx / 8
  let cost := boostCost q.level * q.len
  let reserved := (s.csrGet (0x1011 + 0x100 * p)).toNat
  if (s.physAt (s.physOf c)).capped then 4
  else if s.budget p - (reserved : Int) < (cost : Int) then 1
  else if k.permits < q.level - 10 then 2
  else if !k.slot && decide (s.slotsOf c ≤ s.slotsHeld c) then 3
  else 0

/-- A granted claim: the old lease gives way, and cost × length is reserved (R219, R420). -/
def State.grantClaim (s : State) (c : Nat) (q : Claim) : State :=
  let p := q.ctx / 8
  let n := boostCost q.level * q.len
  let s1 := s.endLease c true
  let s2 := s1.csrSet (0x1011 + 0x100 * p) (s1.csrGet (0x1011 + 0x100 * p) + BitVec.ofNat 64 n)
  { s2 with clusters := SMap.ins s2.clusters c { s2.cluster c with slot := true, fall := 0
                                                                   lease := some { level := q.level, left := q.len, part := p, res := n } } }

/-- BOOST_RESULT (R219, R326) and S[D]: the warp goes on. -/
def State.answerClaim (s : State) (c : Nat) (q : Claim) (status : Nat) : State :=
  let det := ((SMap.look s.ctxs q.ctx).map Ctx.det).getD false
  let s1 := s.sset q.wk q.dst.toNat (if det then 0 else BitVec.ofNat 64 status)
  let s2 := q.ths.foldl (fun s th => s.updThread th (fun t => { t with rdvDone := true })) s1
  let s3 := { s2 with clusters := SMap.upd s2.clusters c (fun k => { k with claims := k.claims.filter (· ≠ q) }) }
  if det then s3.post (q.ctx / 8) 0x0012 [(8, 2, c), (10, 1, status), (11, 1, q.ctx % 8), (12, 1, q.level), (16, 4, q.len)] else s3

/-- One claim decided: length 0 or level 10 ends the lease (R420). -/
def State.decideClaim (s : State) (c : Nat) (q : Claim) : State :=
  if q.level = 10 ∨ q.len = 0 then (s.endLease c true).answerClaim c q 0
  else
    let st := s.claimStatus c q
    (if st = 0 then s.grantClaim c q else s).answerClaim c q st

/-- Claims in the order of R379: higher priority, lower weighted wear, lower index, then as they came. -/
def State.claimBefore (s : State) (a b : Nat × Claim) : Bool :=
  let pa := s.prioOf a.2.ctx
  let pb := s.prioOf b.2.ctx
  let wa := s.physWw (s.physOf a.1)
  let wb := s.physWw (s.physOf b.1)
  decide (pb < pa) || (pa == pb && (decide (wa < wb) || (wa == wb && (decide (a.1 < b.1) || (a.1 == b.1 && decide (a.2.at_ < b.2.at_))))))

/-- The waiting claims, in their order. -/
def State.claimOrder (s : State) : List (Nat × Claim) :=
  let all := s.clusters.flatMap (fun e => e.2.claims.map (fun q => (e.1, q)))
  all.foldl (fun l x => l.takeWhile (fun y => !s.claimBefore x y) ++ [x] ++ l.dropWhile (fun y => !s.claimBefore x y)) []

/-- A BOOST of a DET context is held at its boundary while its front end's ring holds 1,024 records (R325). -/
def State.claimHeld (s : State) (q : Claim) : Bool := ((SMap.look s.ctxs q.ctx).map Ctx.det).getD false && s.ringBlocked (q.ctx / 8)

/-- Step 3 of R375. -/
def State.decideClaims (s : State) : State := s.claimOrder.foldl (fun s x => if s.claimHeld x.2 then s else s.decideClaim x.1 x.2) s

/-! Bids and the market (R376). -/

/-- One bidder of a die: its bid, weight, wear, current projection by level in 0.01 A, and the level it has reached. -/
structure Bidder where
  c    : Nat
  bid  : Nat
  w    : Nat
  ww   : Nat
  cap1 : Bool
  proj : List Nat
  l    : Nat
  deriving DecidableEq, Repr

/-- I(c, L) in 0.01 A (R376). -/
def Bidder.amps (b : Bidder) (l : Nat) : Nat := (b.proj[l]?).getD 0

/-- A step up fits the budget, and 18 A under CAP 1 (R370, R376). -/
def Bidder.steps (b : Bidder) (budget spent : Nat) : Bool :=
  decide (b.l < b.bid) && decide (spent + b.amps (b.l + 1) ≤ budget + b.amps b.l) && (!b.cap1 || decide (b.amps (b.l + 1) ≤ 1800))

/-- One bidder is raised before another: the least L/w, then lower wear, then lower index (R376). -/
def Bidder.before (a b : Bidder) : Bool :=
  decide (a.l * b.w < b.l * a.w) || (a.l * b.w == b.l * a.w && (decide (a.ww < b.ww) || (a.ww == b.ww && decide (a.c < b.c))))

/-- The loop of R376. -/
def waterFill : Nat → Nat → Nat → List Bidder → List Bidder
  | 0, _, _, bs => bs
  | n + 1, budget, spent, bs =>
    match (bs.filter (fun b => b.steps budget spent)).foldl (fun (best : Option Bidder) b =>
        match best with | none => some b | some a => if b.before a then some b else some a) none with
    | none => bs
    | some b => waterFill n budget (spent + b.amps (b.l + 1) - b.amps b.l) (bs.map (fun x => if x.c = b.c then { x with l := x.l + 1 } else x))

/-- The market of one die: every bidder starts at level 1 (R376). -/
def clearMarket (budget : Nat) (bs : List Bidder) : List Bidder :=
  waterFill (16 * bs.length) budget ((bs.map (fun b => b.amps 1)).sum) bs

/-- A cluster has resident work (R376): a team or a segment on one of its cores. -/
def State.clusWork (s : State) (c : Nat) : Bool :=
  (upFrom (4 * c) 4).any (fun k => (s.coreOf k).seg.isSome || s.teams.any (fun e => e.2.core == k && e.2.at_ == .placed))

/-- The contexts resident on a cluster: those with a team or a segment on one of its cores (R376). -/
def State.clusContexts (s : State) (c : Nat) : List Nat :=
  (s.teams.filter (fun e => e.2.core / 4 == c && e.2.at_ == .placed)).filterMap (fun e => (s.gridOfTeam e.1).map Grid.ctx)
    ++ (upFrom (4 * c) 4).filterMap (fun k => ((s.coreOf k).seg.bind (fun p => SMap.look s.grids p.1)).map Grid.ctx)

/-- The highest priority of a cluster's resident contexts, plus 1; 1 with none (R376). -/
def State.clusWeight (s : State) (c : Nat) : Nat := ((s.clusContexts c).map (fun ck => 1 + s.prioOf ck)).foldl max 1

/-- S below SENS/256 (R376). -/
def sensLow (active stall sens : Nat) : Bool := decide (active + stall ≠ 0 ∧ active * 256 < sens * (active + stall))

/-- A cluster's measured sensitivity, 1/256, saturating (R381). -/
def sensWord (active stall : Nat) : Nat := if active + stall = 0 then 255 else min 255 (256 * active / (active + stall))

/-- Step 4 of R375: the bid (R370, R376, R378, R6). -/
def State.bidOf (s : State) (c : Nat) : Nat :=
  let k := s.cluster c
  let req := match k.lease with
    | some l => if k.slot then l.level else 10
    | none => if s.clusWork c then 10 else 1
  let low := sensLow (s.clusActive c) (s.clusStall c) (field (s.csrGet (0x2000 + 0x100 * (c / 256))) 16 8)
  let bid := match k.fall with
    | 2 => max (k.fallAt - 2) 10
    | 1 => 10
    | _ => if low && decide (10 < req) then max (req - 2) 10 else req
  min bid (s.physAt (s.physOf c)).ceiling

/-- DIE_BUDGET of a die, A: at most 4,000, and its share of 12,000 where the four exceed that (R380). -/
def State.dieBudget (s : State) (d : Nat) : Nat :=
  let b := fun d => min (field (s.csrGet (0x2000 + 0x100 * d)) 32 16) 4000
  let sum := b 0 + b 1 + b 2 + b 3
  if sum ≤ 12000 then b d else 12000 * b d / sum

/-- Step 5 of R375 for a die: the grants. With EN = 0 every uncapped cluster is granted 10, a capped one what its cap leaves (R376). -/
def State.grants (s : State) (d : Nat) (ms : List Meas) : List (Nat × Nat) :=
  let en := (s.csrGet (0x2000 + 0x100 * d)).getLsbD 0
  let cs := (upFrom (256 * d) 256).filter s.powered
  let bs := cs.map (fun c =>
    let p := s.physAt (s.physOf c)
    let bid := if en then (s.cluster c).bid else min 10 p.ceiling   -- what the supply supports bounds it too (R369)
    { c := c, bid := bid, w := s.clusWeight c, ww := s.physWw (s.physOf c), cap1 := p.cap == 1, proj := (measOf ms c).proj, l := 1 : Bidder })
  let budget := if en then 100 * s.dieBudget d else ((bs.map (fun b => b.proj.sum)).sum)
  (clearMarket budget bs).map (fun b => (b.c, b.l))

/-! Levels in effect (R369, R371, R419). -/

/-- A granted level takes effect: a fall at once, the voltage after; a rise once the voltage has settled (R369, R419). -/
def State.applyGrant (s : State) (c g : Nat) : State :=
  let k := s.physOf c
  let p := s.physAt k
  let v0 := s.vsetNow k
  let v1 := min 70 (p.volts g)
  let q := s.cluster c
  let s1 := { s with clusters := SMap.ins s.clusters c { q with grant := g, next := g
                                                                payer := (q.lease.map Lease.part).or (if q.fall = 0 then none else q.payer) } }
  if g ≤ q.level ∨ v1 ≤ v0 then (s1.updPhys k (fun p => { p with vset := v1, riseAt := none })).setLevel c g
  else s1.updPhys k (fun p => { p with vset := v0, vto := v1, riseAt := some s.now })

/-- VOLTAGE_SETTLED (R369, R419): the last step has settled, and the new pattern applies. -/
def State.voltageSettled (s : State) (c : Nat) : State :=
  let k := s.physOf c
  let p := s.physAt k
  match p.riseAt with
  | some t =>
    if s.now < t + 1200 * (p.vto - p.vset) then s
    else (s.updPhys k (fun p => { p with vset := p.vto, riseAt := none })).setLevel c (s.cluster c).next
  | none => s

/-- The interval's counts begin anew (R376); a cluster without power has no grant. -/
def State.newInterval (s : State) : State :=
  { s with cores := SMap.mapV (fun _ (c : CoreSt) => { c with act := 0, stl := 0 }) s.cores
           clusters := SMap.mapV (fun c (k : Cluster) => if s.powered c then k else { k with bid := 0, grant := 0, fall := 0, payer := none }) s.clusters }

/-- POWER_INTERVAL_BOUNDARY (R375): its six steps, once for each 10 µs. -/
def State.powerBoundary (s : State) (ms : List Meas) : State :=
  if s.now / 840000 ≤ s.interval then s
  else
    let cs := (List.range 1024).filter (fun c => !(s.cluster c).dark)
    let s1 := { s.boundaryCharges with interval := s.interval + 1 }.refillAll
    let s2 := cs.foldl (fun s c => let m := measOf ms c; s.newCaps c m.temp m.amps) s1
    let s3 := s2.decideClaims
    let s4 := cs.foldl (fun (s : State) c =>
      let bid := if s.powered c then s.bidOf c else 0
      { s with clusters := SMap.ins s.clusters c { s.cluster c with bid := bid, sens := sensWord (s.clusActive c) (s.clusStall c)
                                                                    proj := (measOf ms c).proj } }) s3
    ((upFrom 0 4).foldl (fun s d => (s4.grants d ms).foldl (fun s g => s.applyGrant g.1 g.2) s) s4).newInterval

/-! Failures of the supply, canaries and heat (R370, R377, R6). -/

/-- The two phases that a darkened cluster has left hold it at level 5 at most, from now until its halt completes (R370). -/
def State.holdAtFive (s : State) (c : Nat) : State :=
  let l := min 5 (s.cluster c).level
  let s1 := (s.updPhys (s.physOf c) (fun p => { p with vset := min (s.vsetNow (s.physOf c)) (p.volts l), riseAt := none })).setLevel c l
  { s1 with clusters := SMap.upd s1.clusters c (fun k => { k with next := l }) }

/-- PHASE_FAIL (R370): the first failure caps the cluster and ends its lease; the second darkens it and calls a billet. -/
def State.phaseFail (s : State) (k phase : Nat) : State :=
  let p := s.physAt k
  if 4 ≤ phase ∨ p.failed.testBit phase ∨ !p.on then s
  else
    let second := decide (p.failed ≠ 0)
    let s1 := s.updPhys k (fun p => { p with failed := p.failed ||| 2 ^ phase, phase := p.phase - 2 ^ phase, cap := if second then 3 else 1 })
    let c := s1.logOf k
    let s2 := if c < 1024 then s1.endLease c false else s1
    let s3 := s2.powerRecord 0x0050 k phase 0
    if second && decide (p.cap ≠ 3) && decide (c < 1024) && s3.physOf c == k then (s3.addCall c 2 0xFFFF).holdAtFive c else s3

/-- BUMP_SUSPECT (R370): a bump group's unexplained step drop, in mV, in a power interval; the third interval in a row with one of more than
15 mV caps the cluster. -/
def State.bumpSuspect (s : State) (k group drop : Nat) : State :=
  let p := s.physAt k
  let i := s.now / 840000
  let n := match SMap.look p.droops group with
    | some x => if x.1 = i then x.2 else if x.1 + 1 = i then x.2 + 1 else 1
    | none => 1
  let again := (SMap.look p.droops group).any (fun x => x.1 == i)
  if 8 ≤ group ∨ drop ≤ 15 ∨ !p.on then s
  else
    let s1 := s.updPhys k (fun p => { p with droops := SMap.ins p.droops group (i, n) })
    if n ≠ 3 ∨ again then s1
    else (s1.updPhys k (fun p => { p with bump := p.bump ||| 2 ^ group, cap := if p.cap = 0 then 2 else p.cap })).powerRecord 0x0051 k group drop

/-- CANLIM; 0 acts as 1 (R413). -/
def State.canLim (s : State) : Nat := max (field (s.csrGet 0x3030) 48 8) 1
/-- SUSPLIM; 0 acts as 1 (R413). -/
def State.suspLim (s : State) : Nat := max (field (s.csrGet 0x3030) 32 8) 1

/-- A cluster's lifetime canary warnings (R408). -/
def State.canaries (s : State) (k : Nat) : Nat := ((clusterUnits k).map (fun u => (s.mark u).canary)).foldl max 0

/-- CANARY (R377, R402, R408): the offset rises by two steps, or above 0.80 V the highest level falls; CANLIM calls a billet. -/
def State.canary (s : State) (k : Nat) : State :=
  let p := s.physAt k
  if !p.on then s
  else
    let c := s.logOf k
    let high := decide (70 < max p.vset (if p.riseAt.isSome then p.vto else 0) + 2)
    let s1 := s.updPhys k (fun p =>
      if high then { p with canwarn := min (p.canwarn + 1) 65535, lower := p.lower + 1 }
      else { p with canwarn := min (p.canwarn + 1) 65535, canofs := p.canofs + 2, vset := p.vset + 2, vto := p.vto + 2 })
    let s2 := (clusterUnits k).foldl (fun (s : State) u => s.updMark u (fun m => { m with canary := m.canary + 1 })) s1
    let s3 := s2.powerRecord 0x0052 k 0 (s2.physAt k).canwarn
    if c < 1024 && s3.physOf c == k && decide (s3.canLim ≤ s3.canaries k) then s3.addCall c 4 0xFFFF else s3

/-- A lowered limit applies at once to counts already reached (R413). -/
def State.limitsReached (s : State) : State :=
  (List.range 1024).foldl (fun (s : State) c =>
    let k := s.physOf c
    if (s.cluster c).dark then s
    else if s.suspLim ≤ (s.mark (engineUnit k)).suspects then s.addCall c 3 (engineUnit k)
    else if s.canLim ≤ s.canaries k then s.addCall c 4 0xFFFF
    else s) s

/-- THERMAL_STEP (R6): above 100 °C a cluster is held at nominal, above 105 °C at level 5. Temperatures in 0.01 °C. -/
def State.thermalStep (s : State) (k temp : Nat) : State :=
  let p := s.physAt k
  if !p.on then s
  else if 10500 < temp ∧ p.hold < 2 then (s.updPhys k (fun p => { p with hold := 2, cool := 0 })).powerRecord 0x0054 k 2 temp
  else if 10000 < temp ∧ p.hold = 0 then (s.updPhys k (fun p => { p with hold := 1, cool := 0 })).powerRecord 0x0054 k 1 temp
  else s

/-- THERMAL_RELEASE (R6): after 100 cool intervals level 5 returns to nominal, and nominal to the market. DESIGN CHOICE: the
count starts afresh for the second return (assumption 138). -/
def State.thermalRelease (s : State) (k temp : Nat) : State :=
  let p := s.physAt k
  if p.cool < 100 then s
  else match p.hold with
    | 2 => (s.updPhys k (fun p => { p with hold := 1, cool := 0 })).powerRecord 0x0054 k 4 temp
    | 1 => (s.updPhys k (fun p => { p with hold := 0, cool := 0 })).powerRecord 0x0054 k 0 temp
    | _ => s

/-! Power-ups (R373). -/

/-- An unpowered cluster that is to be powered: a service cluster of a partition, a called billet, or one that
an anneal brings back; in assay hold the core rails stay unpowered (R393). -/
def State.wantsPower (s : State) (k : Nat) : Bool :=
  let p := s.physAt k
  !p.on && p.inrush == 0 && s.mg.cause == 0 &&
    ((p.state == 0 && (let c := s.logOf k; decide (c < 1024) && (s.partOf c).isSome && s.physOf c == k))
      || s.calls.any (fun q => q.begun && q.phys == some k)
      || s.swaps.any (fun e => e.2 == k))

/-- Power-ups of a sector that wait or ramp slowly, older than one. -/
def State.inrushFirst (s : State) (k : Nat) : Bool :=
  !s.phys.any (fun e => physSector e.1 == physSector k && e.1 != k && e.2.inrush == 1 &&
    (decide (e.2.upAt < (s.physAt k).upAt) || (e.2.upAt == (s.physAt k).upAt && decide (e.1 < k))))

/-- A slow ramp runs in a sector. -/
def State.slowRamp (s : State) (k : Nat) : Bool := s.phys.any (fun e => physSector e.1 == physSector k && e.2.inrush == 3)

/-- The projected current of a sector's powered clusters at their granted levels, 0.01 A (R373). -/
def State.sectorAmps (s : State) (z : Nat) : Nat :=
  (((upFrom (256 * (z / 3)) 256).filter (fun c => s.clusSector c == z && s.powered c)).map (fun c =>
    ((s.cluster c).proj[(s.cluster c).grant]?).getD 0)).sum

/-- An inrush of 12 A fits a sector's headroom: a third of the die's budget, less what is projected there and a reserve of 1.5 A (R373). -/
def State.inrushFits (s : State) (z : Nat) : Bool := decide (s.sectorAmps z + 150 + 1200 ≤ 100 * s.dieBudget (z / 3) / 3)

/-- A waiting power-up looked at, its time `t`: it ramps where it is first in its sector and the inrush fits. -/
def State.inrushLook (s : State) (k t : Nat) : State :=
  if (s.physAt k).inrush = 1 && s.inrushFits (physSector k) && s.inrushFirst k && decide (t ≤ (s.physAt k).upAt + 3360000) then
    s.updPhys k (fun p => { p with inrush := 2, rampAt := t })
  else s

/-- CLUSTER_POWER_UP (R373): the request; it ramps where its inrush fits the sector's headroom and none waits before it. -/
def State.clusterPowerUp (s : State) (k : Nat) : State :=
  if !s.wantsPower k then s else (s.updPhys k (fun p => { p with inrush := 1, upAt := s.now })).inrushLook k s.now

/-- INRUSH_RECHECK (R373): a waiting power-up, oldest first, looked at anew at a microsecond of its wait, within its 40 µs. -/
def State.inrushRecheck (s : State) (k : Nat) : State :=
  if (s.now - (s.physAt k).upAt) % 84000 = 0 then s.inrushLook k s.now else s

/-- Waiting power-ups looked at each microsecond that ends in the `dt` ticks before now, older requests first (R373). -/
def State.inrushPass (s : State) (dt : Nat) : State :=
  let ws := s.phys.filter (fun e => e.2.inrush == 1)
  ws.foldl (fun s _ => ws.foldl (fun s e =>
    let t := e.2.upAt + 84000 * ((s.now - dt - e.2.upAt) / 84000 + 1)
    if t ≤ s.now then s.inrushLook e.1 t else s) s) s

/-- INRUSH_SLOW (R373): no headroom at 40 µs; the slow ramp waits its turn for the reserve. -/
def State.inrushSlow (s : State) (k : Nat) : State :=
  let p := s.physAt k
  if p.inrush = 1 && s.inrushFirst k && !s.slowRamp k && decide (p.upAt + 3360000 ≤ s.now) then
    (s.updPhys k (fun p => { p with inrush := 3, rampAt := s.now })).powerRecord 0x0053 k 0 ((s.now - p.upAt) / 84000)
  else s

/-- RAMP_END (R373): 2 µs or 16 µs after its start a ramp ends; the cluster runs at level 1. -/
def State.rampEnd (s : State) (k : Nat) : State :=
  let p := s.physAt k
  let n := if p.inrush = 2 then 168000 else 1344000
  if p.inrush < 2 ∨ s.now < p.rampAt + n then s
  else
    let s1 := s.updPhys k (fun p => { p with on := true, inrush := 0, vset := min 70 (p.volts 1), riseAt := none })
    let c := s1.logOf k
    if c < 1024 && s1.physOf c == k then
      let s2 := s1.setLevel c 1
      { s2 with clusters := SMap.upd s2.clusters c (fun q => { q with next := 1, grant := if q.payer.isSome then q.grant else 1, bid := 1 }) }
    else s1

/-- A cluster whose cause to call a billet has arisen loses its lease (R408, R421). -/
def State.settleCalls (s : State) : State := s.calls.foldl (fun s q => s.endLease q.clus false) s

end Sys2Proof.Machine
end

