-- ==== Sys2Proof/Machine/Wear.lean ====
section
/-!
DEFINITION. Wear: accrual, anneal swaps, billet calls, the record store and hallmarks (R384, R391, R392, R401 to R421).
-/
namespace Sys2Proof.Machine

/-! Accrual (R403, R404, R410). -/

/-- fB and fH in hundredths, by the supply's row of 50 mV from 0.45 V (R403). -/
def wearV : List (Nat × Nat) := [(4, 2), (10, 6), (25, 18), (52, 45), (100, 100), (180, 205), (310, 390), (510, 700)]

/-- The row at or above a supply in mV. -/
def vRow (mv : Nat) : Nat × Nat := (wearV[min 7 ((mv - 450 + 49) / 50)]?).getD (510, 700)

/-- fT in hundredths, at the row at or above a temperature in 0.01 °C (R403). -/
def tRow (t : Nat) : Nat :=
  if t ≤ 2500 then 5 else if t ≤ 4500 then 16 else if t ≤ 6500 then 42 else if t ≤ 8500 then 100
  else if t ≤ 9500 then 152 else if t ≤ 10500 then 230 else 340

/-- A quotient in 1/1,024 milli-rs; an inexact one rounds up where the controller does. -/
def wearDiv (a b : Nat) (up : Bool) : Nat := a / b + (if up && a % b != 0 then 1 else 0)

/-- What a millisecond adds to a touchmark's integrators (R403). -/
def Mark.accrue (m : Mark) (mv temp act mhz amps up : Nat) : Mark :=
  let v := vRow mv
  let t := tRow temp
  { m with bti := m.bti + wearDiv (1024 * v.1 * t) 10000 (up.testBit 0)
           hci := m.hci + wearDiv (1024 * v.2 * t * act * mhz) (10000 * 512 * 700) (up.testBit 1)
           em := m.em + wearDiv (1024 * amps * amps * t) (2 ^ 20 * 100) (up.testBit 2) }

/-- A unit id that R401 gives. -/
def unitOk (u : Nat) : Bool :=
  (unitPhys u).isSome || decide (0x4000 ≤ u ∧ u < 0x4000 + 384) || decide (0x6000 ≤ u ∧ u < 0x6000 + 16)
    || decide (0x8000 ≤ u ∧ u < 0x8000 + 8)

/-- The 5,688 unit ids in order (R401). -/
def allUnits : List Nat := upFrom 0 4224 ++ upFrom 0x2000 1056 ++ upFrom 0x4000 384 ++ upFrom 0x6000 16 ++ upFrom 0x8000 8

/-- A unit accrues stress: powered, and no resting cluster, retired one or billet that has not been called (R402, R403). -/
def State.accrues (s : State) (u : Nat) : Bool :=
  match unitPhys u with
  | some k => let p := s.physAt k; p.on && (p.state == 0 || s.calls.any (fun q => q.begun && q.phys == some k))
  | none => unitOk u && s.unitState u != 3

/-- A core or engine at its retire line calls a billet, another unit is marked and recorded (R404, R408). -/
def State.checkLine (s : State) (u : Nat) : State :=
  let m := s.mark u
  if m.ww < 65536 then s
  else match unitPhys u with
    | some k =>
      let c := s.logOf k
      if c < 1024 && s.physOf c == k && (s.physAt k).state == 0 && !(s.cluster c).dark then s.addCall c 1 u else s
    | none =>
      if m.due then s
      else (s.updMark u (fun m => { m with due := true })).postPf 0x0074 [(8, 2, 0xFFFF), (10, 2, u), (16, 8, m.ww)]

/-- What was measured of a unit over a millisecond; an unlisted one stood at its supply, cool and idle (assumption 94). -/
def State.wearOf (s : State) (ms : List WearMeas) (u : Nat) : WearMeas :=
  let mv := match unitPhys u with | some k => 450 + 5 * s.vsetNow k | none => 450
  (ms.find? (fun x => x.unit == u)).getD
    { unit := u, mv := mv, temp := 2500, act := 0, mhz := 0, amps := 0, up := 0, mv10 := mv, mhz10 := 0, amps10 := 0 }

/-- The greatest net stress of a cluster's units after a millisecond, at the rates measured or at those of level 10 (R404, R410). -/
def State.stressAfter (s : State) (k : Nat) (ms : List WearMeas) (ten : Bool) : Nat :=
  ((clusterUnits k).map (fun u =>
    let x := s.wearOf ms u
    ((if ten then (s.mark u).accrue x.mv10 x.temp x.act x.mhz10 x.amps10 x.up else (s.mark u).accrue x.mv x.temp x.act x.mhz x.amps x.up)).net)).foldl max 0

/-- Stress charged to the logical index that a cluster serves (R410): its increase, for intervals of the millisecond that were debited to a
lease at the rate of level 10 (assumption 150). -/
def State.chargeStrain (s old : State) (k : Nat) (ms : List WearMeas) : State :=
  let c := s.logOf k
  if 1024 ≤ c || s.physOf c != k then s
  else
    let n := min (s.cluster c).boosted 100
    let d := fun ten => old.stressAfter k ms ten - old.physStress k
    { s with strain := SMap.write 0 s.strain c (SMap.read 0 s.strain c + (d false * (100 - n) + d true * n) / 100) }

/-- A unit's BTI after a millisecond of service, and before its first one (R405). -/
def State.logBti (s old : State) (u : Nat) : State :=
  let l := match SMap.look old.btiLog u with | some l => l | none => [(old.wearMs, (old.mark u).bti)]
  { s with btiLog := SMap.ins s.btiLog u ((s.wearMs, (s.mark u).bti) :: l) }

/-- WEAR_ACCRUAL (R403, R408, R410): one millisecond of every powered unit. -/
def State.wearAccrual (s : State) (ms : List WearMeas) : State :=
  if s.now / 84000000 ≤ s.wearMs then s
  else
    let us := allUnits.filter s.accrues
    let s1 := us.foldl (fun (t : State) u =>
      let x := s.wearOf ms u
      (t.updMark u (fun m => { m.accrue x.mv x.temp x.act x.mhz x.amps x.up with ms := m.ms + 1 })).logBti s u) { s with wearMs := s.wearMs + 1 }
    let ks := (upFrom 0 1056).filter (fun k => s.accrues (engineUnit k))
    let s2 := ks.foldl (fun (t : State) k => t.chargeStrain s k ms) s1
    us.foldl (fun s u => s.checkLine u) { s2 with clusters := SMap.mapV (fun _ (k : Cluster) => { k with boosted := 0 }) s2.clusters }

/-- BUDGET_REFILL (R410, R412): a due refill in step 1 of a boundary that has come, after that step's charges. -/
def State.budgetRefill (s : State) (p : Nat) : State :=
  if p < 16 ∧ s.interval < s.now / 840000 ∧ s.refillDue p then s.boundaryCharges.refill p else s

/-! Moving a cluster's work to another physical cluster (R263, R405, R408). -/

/-- A team halted as by a hard halt: its generation tags move on and its work is saved (R365 step 2). -/
def State.stopTeam (s : State) (tk : Nat) : State :=
  ((s.teamWarps tk).foldl (fun (s : State) wk => s.updWarp wk (fun w => { w with gen := (w.gen + 1) % 16 })) s).haltTeam tk

/-- What a cluster's cores cached is gone (R408). -/
def State.dropCaches (s : State) (c : Nat) : State :=
  { s with l1 := SMap.keep (fun k _ => decide (k / 2 ^ 45 / 4 ≠ c)) s.l1
           groups := SMap.mapV (fun _ (g : Group) => if g.core / 4 = c then { g with latch := [] } else g) s.groups }

/-- A cluster's teams halted and, at the same logical cores, restored on the physical cluster that takes it over; the table says so and the
newcomer runs at level 1 until the market raises it. -/
def State.takeOver (s : State) (c k : Nat) : State :=
  let tks := s.swapSet c
  let at_ := tks.map (fun tk => (tk, ((SMap.look s.teams tk).map Team.core).getD 0))
  let s1 := (tks.foldl (fun s tk => s.stopTeam tk) s).dropCaches c
  let s2 := ({ s1 with serve := SMap.ins s1.serve c k, btiLog := SMap.keep (fun u _ => !(clusterUnits k).contains u) s1.btiLog }).updPhys k
    (fun p => { p with state := 0 })
  let s3 := s2.setLevel c (if s2.powered c then 1 else 0)
  let s4 := { s3 with clusters := SMap.upd s3.clusters c (fun q => { q with next := q.level }) }
  at_.foldl (fun s e => s.arriveTeam e.1 e.2) s4

/-! Anneal (R405, R406). -/

/-- ANNEAL_CTL of a die. -/
def State.annealCtl (s : State) (d : Nat) : W64 := s.csrGet (0x2010 + 0x100 * d)
/-- ROTMS in ticks; values below 100 act as 100. -/
def State.rotTicks (s : State) (d : Nat) : Nat := 84000000 * max (field (s.annealCtl d) 16 16) 100
/-- DUR in ticks; 0 acts as 1. -/
def State.restTicks (s : State) (d : Nat) : Nat := 84000000000 * max (field (s.annealCtl d) 8 8) 1

/-- Clusters of a sector that may enter anneal, co-resident ones included (R405). -/
def State.mayRest (s : State) (z : Nat) : List Nat :=
  (upFrom (256 * (z / 3)) 256).filter (fun c =>
    let p := s.physAt (s.physOf c)
    let k := s.cluster c
    s.clusSector c == z && !k.dark && p.state == 0 && p.cap == 0 && k.lease.isNone && !k.slot
      && !(upFrom (4 * c) 4).any (fun i => (s.coreOf i).seg.isSome))

/-- The cluster of highest weighted wear, ties to the lower index (R405, R407). -/
def State.mostWorn (s : State) (cs : List Nat) : Option Nat :=
  cs.foldl (fun (best : Option Nat) c =>
    match best with
    | none => some c
    | some b => if s.physWw (s.physOf b) < s.physWw (s.physOf c) then some c else some b) none

/-- The cluster a rotation of a sector would rest: one with a co-resident team only after ten rotations skipped for it (R405). -/
def State.restNext (s : State) (z : Nat) : Option Nat :=
  let all := s.mayRest z
  let free := all.filter (fun c => (s.coresOn c).isEmpty)
  if free.isEmpty ∧ SMap.read 0 s.skips z < 10 then none else s.mostWorn (if free.isEmpty then all else free)

/-- The annealing cluster of a sector that has rested longest. -/
def State.resting (s : State) (z : Nat) : Option Nat :=
  ((upFrom (264 * (z / 3) + 88 * (z % 3)) 88).filter (fun k => (s.physAt k).state == 1)).foldl (fun (best : Option Nat) k =>
    match best with
    | none => some k
    | some b => if (s.physAt k).restAt < (s.physAt b).restAt then some k else some b) none

/-- The credit that an anneal brings a unit: 20 % of the BTI of the D of service before it, so that CREDIT stays at CAPPCT % of BTI (R405).
`past` is the unit's BTI when that service began. -/
def Mark.credited (m : Mark) (past pct : Nat) : Mark :=
  let add := (m.bti - past) / 5120
  { m with credit := max m.credit (min (m.credit + add) (m.bti * pct / 102400)), anneals := m.anneals + 1 }

/-- A unit's BTI one length of the anneal before it entered it at `t`, or where its service began later, then; what it has where it has
served nothing (R405). -/
def State.btiBefore (s : State) (u t : Nat) : Nat :=
  let m0 := t / 84000000
  let d := (s.now - t) / 84000000
  let l := (SMap.look s.btiLog u).getD []
  match l.find? (fun e => decide (e.1 + d ≤ m0)) with
  | some e => e.2
  | none => (l.getLast?.map Prod.snd).getD (s.mark u).bti

/-- A due rotation that comes to nothing for another reason than a co-resident team. -/
def State.skipOther (s : State) (z : Nat) : State := { s with skips := SMap.del s.skips z }

/-- A sector's rotation in flight is given up: the cluster that was powered up for it goes on resting (R409). -/
def State.dropSwap (s : State) (z k : Nat) : State :=
  ({ s with swaps := SMap.del s.swaps z }).updPhys k (fun p => { p with on := false, inrush := 0, riseAt := none })

/-- The rotation of a sector that falls due (R405, R409): its rested cluster is recalibrated and powered up. -/
def State.rotationStart (s : State) (d z : Nat) (cal : List Nat) : State :=
  let last := (SMap.look s.rotAt z).getD 0
  let rot := s.rotTicks d
  if s.now < last + rot then s
  else
    let s1 := { s with rotAt := SMap.ins s.rotAt z (last + rot * ((s.now - last) / rot)) }
    if s.calls.any (fun q => s.clusSector q.clus == z) then s1.skipOther z
    else match s.resting z with
      | none => s1.skipOther z
      | some k =>
        if s.now < (s.physAt k).restAt + s.restTicks d then s1.skipOther z
        else match s.restNext z with
          | some _ => { s1.updPhys k (fun p => { p with canofs := 0, vmin := cal, top := 16, lower := 0 }) with swaps := SMap.ins s1.swaps z k }
          | none => if (s.mayRest z).isEmpty then s1.skipOther z else { s1 with skips := SMap.ins s1.skips z (SMap.read 0 s1.skips z + 1) }

/-- The swap of a rotation (R405): once the rested cluster's ramp has ended, the most worn one gives its index and its teams to it and
rests; a call in the sector takes precedence (R409). -/
def State.rotationSwap (s : State) (d z k : Nat) : State :=
  if s.calls.any (fun q => s.clusSector q.clus == z) then s.dropSwap z k
  else match s.restNext z with
    | none => s
    | some c =>
      if !(s.physAt k).on || (s.physAt k).inrush ≠ 0 || !s.swapReady c then s
      else
        let old := s.physOf c
        let pct := min (field (s.annealCtl d) 32 8) 50
        let part := (s.partOf c).getD 0
        let before := (clusterUnits k).map (fun u => (s.mark u).credit)
        let s1 := (clusterUnits k).foldl (fun (t : State) u =>
          t.updMark u (fun m => m.credited (min (s.btiBefore u (s.physAt k).restAt) m.bti) pct)) s
        let added := ((clusterUnits k).map (fun u => (s1.mark u).credit)).sum - before.sum
        let s2 := (s1.takeOver c k).updPhys old (fun p => { p with state := 1, on := false, riseAt := none, restAt := s.now })
        let s3 := { s2 with swaps := SMap.del s2.swaps z, skips := SMap.del s2.skips z }
        (s3.postPf 0x0071 [(8, 2, c), (10, 2, physField k), (12, 1, 1), (13, 1, part), (16, 8, added)]).postPf 0x0071
          [(8, 2, c), (10, 2, physField old), (12, 1, 0), (13, 1, part)]

/-- ANNEAL (R405, R409): a step of a sector's rotation, where its die rotates and no resize is in progress. -/
def State.anneal (s : State) (d sec : Nat) (cal : List Nat) : State :=
  let z := 3 * d + sec
  if 4 ≤ d ∨ 3 ≤ sec ∨ !(s.annealCtl d).getLsbD 0 ∨ s.rsz.isSome ∨ s.off ∨ s.mg.cause ≠ 0 then s
  else match SMap.look s.swaps z with
    | none => s.rotationStart d z cal
    | some k => s.rotationSwap d z k

/-! Billets (R3, R392, R407 to R409, R421). -/

/-- RETIRE records of a cluster's units (R418). -/
def State.retireRecords (s : State) (k clus cause : Nat) : State :=
  (clusterUnits k).foldl (fun s u => s.postPf 0x0073 [(8, 2, clus), (10, 2, u), (12, 1, cause), (16, 8, (s.mark u).ww)]) s

/-- A physical cluster is retired: unpowered for good (R402). -/
def State.retire (s : State) (k : Nat) : State :=
  s.updPhys k (fun p => { p with state := 3, on := false, inrush := 0, riseAt := none })

/-- The untested billet of a die with the lowest physical number (R407). -/
def State.nextBillet (s : State) (d : Nat) : Option Nat := (upFrom (264 * d) 264).find? (fun k => (s.physAt k).state == 2)

/-- A call changed. -/
def State.updCall (s : State) (c : Nat) (f : Call → Call) : State :=
  { s with calls := s.calls.map (fun q => if q.clus = c then f q else q) }

/-- The unit a BILLET_CALL names: that of causes 1 and 3 (R418). -/
def Call.unitField (q : Call) (cause : Nat) : Nat :=
  let k := if cause = 6 then q.base else cause
  if k = 1 ∨ k = 3 then q.unit else 0xFFFF

/-- BILLET_CALL's record; where no billet is left its place is open (R409, R418). -/
def State.callRecord (s : State) (q : Call) (cause : Nat) (k : Option Nat) : State :=
  let r := s.free
  let b := match k with | some k => (physField k, s) | none => (r.1.toNat % 65536, r.2)
  let part := (s.partOf q.clus).getD 0
  b.2.postPf 0x0072 [(8, 2, q.clus), (10, 2, b.1), (12, 1, cause), (13, 1, part), (16, 8, q.unitField cause)]

/-- The next billet is called for a cluster, or none is left (R409). -/
def State.callNext (s : State) (q : Call) (cause : Nat) : State :=
  let d := q.clus / 256
  match s.nextBillet d with
  | some k =>
    let s1 := { (s.callRecord q cause (some k)) with called := SMap.ins s.called d (SMap.read 0 s.called d + 1) }
    s1.updCall q.clus (fun q => { q with begun := true, cause := cause, phys := some k })
  | none => (s.callRecord q 6 none).updCall q.clus (fun q => { q with begun := true, cause := 6, phys := none })

/-- BILLET_CALL (R408, R409): the next call of a die, one at a time; during a resize only those of cause 2. -/
def State.billetCall (s : State) (d : Nat) : State :=
  if s.calls.any (fun q => q.begun && q.clus / 256 == d) then s
  else match s.calls.find? (fun q => q.clus / 256 == d && (q.cause == 2 || s.rsz.isNone)) with
    | none => s
    | some q => (s.endLease q.clus false).callNext q q.cause

/-- The index stays dark: its segments and its teams go to other cores of the partition (R3, R409). -/
def State.goDark (s : State) (c : Nat) : State :=
  let old := s.physOf c
  let tks := s.swapSet c
  let s1 := ((tks.foldl (fun s tk => s.stopTeam tk) s).dropCaches c)
  let s2 := { s1.setLevel c 0 with clusters := SMap.ins s1.clusters c { (s1.setLevel c 0).cluster c with dark := true, bid := 0, next := 0 } }
  let s3 := (s2.retire old).updPhys old (fun p => { p with cap := 3 })
  let s4 := s3.moveSegments [c]
  tks.foldl (fun s tk => if ((SMap.look s.teams tk).map Team.at_) = some .halted then (s.restoreGroup tk).getD s else s) s4

/-- What a test leaves of a cluster (R391 steps 3, 4 and 6): none where it is to be retired, for its logic, two failed phases or no VMIN(10)
at or below 0.80 V; else capped where a phase or a bump group failed (R370), and calibrated. -/
def Phys.tested (p : Phys) (dead : Bool) (phases bumps : Nat) (cal : List Nat) : Option Phys :=
  let f := phases % 16
  let b := bumps % 256
  if dead || decide (2 ≤ ((List.range 4).filter (fun i => f.testBit i)).length) || decide (70 < (cal[10]?).getD 71) then none
  else some { p with failed := f, phase := 15 - f, bump := b, cap := if f ≠ 0 then 1 else if p.cap ≠ 0 then p.cap else if b ≠ 0 then 2 else 0
                     vmin := cal, vset := (cal[10]?).getD 30, canofs := 0, top := 16, lower := 0 }

/-- BILLET_TEST_DONE (R392, R408, R409): a billet that passes takes the index over with PERMITS at PERMIT_CAP; one that fails is retired and
the next is called; with none left the index goes dark. -/
def State.billetTestDone (s : State) (d : Nat) (pass : Bool) (phases bumps : Nat) (cal : List Nat) : State :=
  match s.calls.find? (fun q => q.begun && q.clus / 256 == d) with
  | none => s
  | some q =>
    let c := q.clus
    let fin := fun (s : State) => { s with calls := s.calls.filter (fun x => x.clus != c) }
    match q.phys with
    | none =>
      if !s.swapReady c then s
      else fin ((s.goDark c).retireRecords (s.physOf c) c q.base)
    | some k =>
      if !(s.physAt k).on ∨ (s.physAt k).inrush ≠ 0 then s
      else match (s.physAt k).tested (!pass) phases bumps cal with
        | none => (s.retire k |>.retireRecords k 0xFFFF 5).callNext q 5
        | some p1 =>
          if !s.swapReady c then s
          else
            let old := s.physOf c
            let s2 := (s.updPhys k (fun _ => p1)).takeOver c k
            let s3 := { s2 with clusters := SMap.ins s2.clusters c { s2.cluster c with permits := s.permitCap c } }
            fin ((s3.retire old).retireRecords old c q.base)

/-! The record store (R415) and hallmarks (R416, R417). -/

/-- What a checkpoint's digest is taken over: its sequence and its touchmarks (R415). -/
def ckptBytes (seq : Nat) (m : SMap Mark) : List Byte :=
  leBytes 8 seq ++ m.flatMap (fun e => leBytes 2 e.1 ++ leBytes 8 e.2.bti ++ leBytes 8 e.2.hci ++ leBytes 8 e.2.em ++ leBytes 8 e.2.credit
    ++ leBytes 4 e.2.canary ++ leBytes 4 e.2.suspects ++ leBytes 8 e.2.ms ++ leBytes 4 e.2.anneals ++ leBytes 1 e.2.due.toNat ++ leBytes 8 e.2.at_)

/-- A checkpoint whose digest fits. -/
def Ckpt.valid (c : Ckpt) : Bool := c.digest == sha256 (ckptBytes c.seq c.marks)

/-- The newest valid checkpoint (R415). -/
def State.newestCkpt (s : State) : Option Ckpt :=
  match s.ckA.filter Ckpt.valid, s.ckB.filter Ckpt.valid with
  | some a, some b => if a.seq < b.seq then some b else some a
  | some a, none => some a
  | none, b => b

/-- The touchmarks that the record store holds (R415): the newest valid checkpoint's, with the journal over them. -/
def State.recovered (s : State) : SMap Mark :=
  s.jmarks.foldl (fun m e => SMap.ins m e.1 e.2) ((s.newestCkpt.map Ckpt.marks).getD [])

/-- The record store holds checkpoints, and none is valid (R391 step 2). -/
def State.storeBad (s : State) : Bool := (s.ckA.isSome || s.ckB.isSome) && s.newestCkpt.isNone

/-- JOURNAL_WRITE (R415): changed touchmark fields, once per second. -/
def State.journalWrite (s : State) : State :=
  if s.powSec ≤ s.jsec then s
  else { s with jmarks := (s.marks.filter (fun e => SMap.look s.recovered e.1 != some e.2)).foldl (fun m e => SMap.ins m e.1 e.2) s.jmarks
                jsec := s.powSec }

/-- The first 8 bytes of a touchmark (R402). -/
def State.markHead (s : State) (u : Nat) : List Byte :=
  let m := s.mark u
  let capped := match unitPhys u with | some k => decide ((s.physAt k).cap ≠ 0) | none => false
  leBytes 2 u ++ leBytes 1 (s.unitState u) ++ leBytes 1 (m.due.toNat + 2 * capped.toNat) ++ leBytes 4 m.ww

/-- A touchmark's 64 bytes (R402). -/
def State.touchmark (s : State) (u : Nat) : List Byte :=
  let m := s.mark u
  s.markHead u ++ leBytes 8 (m.bti / 1024) ++ leBytes 8 (m.hci / 1024) ++ leBytes 8 (m.em / 1024) ++ leBytes 8 m.credit
    ++ leBytes 4 m.canary ++ leBytes 4 m.suspects ++ leBytes 4 (m.ms / 3600000) ++ leBytes 4 m.anneals ++ leBytes 8 m.at_

/-- A unit's 32 bytes of a hallmark (R416): stresses and credit in rs. -/
def State.hallUnit (s : State) (u : Nat) : List Byte :=
  let m := s.mark u
  s.markHead u ++ leBytes 4 ((m.bti - 1024 * m.credit) / 1024000) ++ leBytes 4 (m.hci / 1024000) ++ leBytes 4 (m.em / 1024000)
    ++ leBytes 4 (m.credit / 1000) ++ leBytes 2 (min m.canary 65535) ++ leBytes 2 (min m.suspects 65535) ++ leBytes 4 (m.ms / 3600000)

/-- A partition's 32 bytes of a hallmark (R416). -/
def State.hallPart (s : State) (p : Nat) : List Byte :=
  leBytes 8 (s.csrGet (0x1010 + 0x100 * p)).toNat ++ leBytes 8 (s.csrGet (0x1011 + 0x100 * p)).toNat
    ++ leBytes 8 ((SMap.look s.refills p).getD 0).toNat ++ leBytes 2 (s.partLimit p - s.partBase p) ++ List.replicate 6 0

/-- A die's 64 bytes of a hallmark (R416): units retired, those of its slices never. -/
def State.hallDie (s : State) (d : Nat) : List Byte :=
  let ks := upFrom (264 * d) 264
  let us := ks.flatMap clusterUnits
  leBytes 1 (ks.filter (fun k => (s.physAt k).state == 2 && !s.calls.any (fun q => q.phys == some k))).length
    ++ leBytes 2 (SMap.read 0 s.called d) ++ leBytes 2 (5 * (ks.filter (fun k => (s.physAt k).state == 3)).length)
    ++ leBytes 8 ((ks.map (fun k => (s.mark (engineUnit k)).anneals)).sum) ++ leBytes 8 ((us.map (fun u => (s.mark u).credit)).sum / 1000)
    ++ List.replicate 43 0

/-- A hallmark of a sequence number (R416), its signature open (assumption 4). -/
def State.hallmark (s : State) (seq : Nat) : List Byte :=
  let t := s.csrGet 0x3030
  let head := leBytes 4 0x4B524D48 ++ leBytes 2 1 ++ leBytes 2 5688 ++ leBytes 8 seq ++ leBytes 8 s.powSec ++ leBytes 8 wearLine
    ++ leBytes 2 (field t 0 16) ++ leBytes 1 (field t 16 8) ++ [0] ++ leBytes 4 s.mg.running.ver ++ s.mg.running.digest
    ++ List.replicate 12 0 ++ leBytes 4 183232
  let body := head ++ allUnits.flatMap s.hallUnit ++ (upFrom 0 16).flatMap s.hallPart ++ (upFrom 0 4).flatMap s.hallDie
  body ++ (upFrom 0 48).flatMap (fun i => leBytes 8 (Config.signatureOf seq i).toNat)

/-- A hallmark's generation begins unless one is under way; its sequence is stored first (R416). -/
def State.hallBegin (s : State) : State :=
  if s.hm.busy then s else { s with hm := { s.hm with busy := true, seq := s.hm.seq + 1 } }

/-- HM_CTL_GEN (R11, R417). -/
def State.hmCtl (s : State) (v : W64) : State :=
  if field v 1 63 ≠ 0 then s.recordCfg else if v.getLsbD 0 then s.hallBegin else s

/-- A hallmark that a checkpoint asks for: generated now, or after the one under way (R416). -/
def State.hallAsk (s : State) : State := if s.hm.busy then { s with hm := { s.hm with owed := s.hm.owed + 1 } } else s.hallBegin

/-- CHECKPOINT (R415, R416): hourly, A and B in turn, with its sequence and digest; the journal begins anew, and a hallmark is generated. -/
def State.checkpoint (s : State) : State :=
  if s.powSec / 3600 ≤ s.jhour then s
  else
    let seq := max ((s.ckA.map Ckpt.seq).getD 0) ((s.ckB.map Ckpt.seq).getD 0) + 1
    let c : Ckpt := { seq := seq, marks := s.marks, digest := sha256 (ckptBytes seq s.marks) }
    let s1 := if seq % 2 = 1 then { s with ckA := some c } else { s with ckB := some c }
    State.hallAsk { s1 with jhour := s.powSec / 3600, jmarks := [] }

/-- HALLMARK_DONE (R415 to R418): the window switches to it, and the record store keeps it with the 127 before it. -/
def State.hallmarkDone (s : State) : State :=
  if !s.hm.busy then s
  else
    let bs := s.hallmark s.hm.seq
    let s1 := ({ s with hm := { s.hm with busy := false, bytes := bs, shown := s.hm.seq, kept := ((s.hm.seq, bs) :: s.hm.kept).take 128 } }).postPf
      0x0070 [(16, 8, s.hm.seq)]
    if s1.hm.owed = 0 then s1 else State.hallBegin { s1 with hm := { s1.hm with owed := s1.hm.owed - 1 } }

/-- A register of the hallmark interface (R417); in assay hold before step 2 has passed it shows nothing. -/
def State.hmRead (s : State) (off : Nat) : W64 :=
  let h := s.hm
  if !s.mg.past2 then 0
  else if off = 0x008 then BitVec.ofNat 64 (h.busy.toNat + 2 ^ 32 * h.bytes.length)
  else if off = 0x010 then BitVec.ofNat 64 h.shown
  else if off = 0x018 then BitVec.ofNat 64 h.page
  else if 0x1000 ≤ off ∧ off < 0x2000 then BitVec.ofNat 64 (ofLeBytes ((h.bytes.drop (4096 * h.page + (off - 0x1000))).take 8))
  else 0

/-- A write of the hallmark interface (R11, R417), which does not work in assay hold before step 2 has passed; a page above 44 shows zeros. -/
def State.hmWrite (s : State) (off : Nat) (v : W64) : State :=
  if !s.mg.past2 then s
  else if off = 0x000 then s.hmCtl v
  else if off = 0x018 then (if field v 6 58 ≠ 0 then s.recordCfg else { s with hm := { s.hm with page := v.toNat } })
  else s

end Sys2Proof.Machine
end

