-- ==== Sys2Proof/Machine/Integ.lean ====
section
/-!
DEFINITION. Integrity: errors that checks find, ERR_STATUS, and scrub (R332, R368, R383 to R390).
-/
namespace Sys2Proof.Machine

/-- Where an uncorrectable error stands from now on (R368, R383, R384): a sector, a scratchpad word, a register, a code word, a word of
scheduler memory. A register's address is its key, and 2^60 more for a scalar one. -/
def State.markError (s : State) (e : ErrArg) : State :=
  match e.hop with
  | 4 => { s with scrBad := SMap.ins s.scrBad e.pa () }
  | 5 => if e.pa < 2 ^ 60 then { s with vbad := SMap.ins s.vbad e.pa () } else { s with sbad := SMap.ins s.sbad (e.pa - 2 ^ 60) () }
  | 6 => { s with codeBad := SMap.ins s.codeBad e.pa () }
  | 7 => { s with bad := SMap.ins s.bad (2 ^ 60 + e.pa / 4) () }
  | 8 => s
  | _ => { s with bad := SMap.ins s.bad (e.pa / 32) (), heal := SMap.keep (fun k _ => decide (k % 2 ^ 64 ≠ e.pa / 32)) s.heal }

/-- A request outside its partition's boundary, which only a hardware fault produces (R343, R385): the crossbar discards it, the access
completes with DATA_ERROR, and ERR_STATUS.XBAR is set. It is lanes of an operation, or a merged write, of a thread or of a copy. -/
def State.xbarDiscard (s : State) (id : Nat) (lanes : W32) : State :=
  let s1 := s.errBit 11
  match SMap.look s1.ops id, SMap.look s1.pend id with
  | some o, _ =>
    { s1 with ops := SMap.ins s1.ops id { o with lanes := o.lanes.map (fun l =>
        if l.space == .glob && laneBit lanes (laneOfTh l.th) && l.got1.isNone then { l with flt := 0x10 } else l) } }
  | none, some p =>
    if p.eng then { s1 with pend := SMap.del s1.pend id, eng := SMap.upd s1.eng p.op (fun o => { o with trap := 0x10 }) }
    else
      let s2 := { s1 with pend := SMap.keep (fun _ e => !(e.op == p.op && e.th == p.th)) s1.pend }
      let l := [(p.th, p.va, p.data)]
      s2.deferFault p.wk 0x10 p.w p.pc l l
  | none, none => s1

/-- An error that a hop's check finds, for a context or none: counted, recorded, and where uncorrectable it stays (R384 to R386). Hop 9 stands
for a request that the crossbar discards (R343): its unit is the operation, its address the lanes. -/
def State.takeError (s : State) (e : ErrArg) (ck : Option Nat) : State :=
  if e.hop = 9 then s.xbarDiscard e.unit (BitVec.ofNat 32 e.pa)
  else
  let fe := match ck with | some k => k / 8 | none => 255
  let cx := match ck with | some k => k % 8 | none => 255
  let s1 := if e.kind = 0 then s else s.markError e
  s1.reportError { hop := e.hop, kind := e.kind, die := e.die, sector := e.sector, unit := e.unit, pa := e.pa, fe := fe, ctx := cx }

/-- The errors that checks have found (R383): each is taken before anything reads the data again. -/
def State.takeErrors (s : State) (es : List (ErrArg × Option Nat)) : State :=
  es.foldl (fun s e => s.takeError { e.1 with kind := min e.1.kind 1 } e.2) s

/-- ERR_STATUS written (R11, R385): W1C bits; a nonzero reserved bit makes the write ignored and recorded. -/
def State.errWrite (s : State) (v : W64) : State :=
  if field v 13 19 ≠ 0 then s.recordCfg else s.csrSet 0x3021 (s.csrGet 0x3021 &&& ~~~(v &&& 0x1FFF))

/-! Scrub (R387 to R390). -/

/-- SCRUB_CTL.EN. -/
def State.scrubEn (s : State) : Bool := (s.csrGet 0x3020).getLsbD 0

/-- The deadline of a pass of a unit that begins now, in ticks: 0 acts as 12 hours and 60 minutes (R390). -/
def State.scrubLimit (s : State) (u : Nat) : Nat :=
  let v := s.csrGet 0x3020
  let h := field v 8 8
  let m := field v 24 8
  if u < 64 then 84000000000 * 3600 * (if h = 0 then 12 else h) else 84000000000 * 60 * (if m = 0 then 60 else m)

/-- A pass that begins now. -/
def State.scrubNew (s : State) (u : Nat) : Scrub := 
  { pos := 0, start := s.now, limit := s.scrubLimit u, take := false, held := none, gen0 := s.erasures u }

/-- A unit's pass. -/
def State.scrubOf (s : State) (u : Nat) : Scrub := (SMap.look s.scrubs u).getD (s.scrubNew u)

/-- The 32-byte sectors of a channel group's 12 GB (R2, R338). -/
def groupSectors : Nat := 402653184

/-- A channel group's pass is behind schedule by more than 1/16 (R388). -/
def State.scrubBehind (s : State) (q : Scrub) : Bool :=
  decide (16 * q.pos * q.limit + groupSectors * q.limit < groupSectors * 16 * (s.now - q.start))

/-- A pass is complete (R332, R387, R388): it has rewritten what erasures before it left stale, and those generations are free again; a late
pass sets SCRLATE, and the next starts at once. -/
def State.scrubEnd (s : State) (u : Nat) (q : Scrub) : State :=
  let s1 := if q.start + q.limit < s.now then s.errBit 10 else s
  let s2 := if u < 64 then { s1 with genBase := SMap.write 0 s1.genBase u q.gen0 } else s1
  { s2 with scrubs := SMap.ins s2.scrubs u (s2.scrubNew u) }

/-- SCRUB_READ (R387): the next sector of a channel group, or the next word of an SRAM; what the check finds, and a corrected sector's
write-back, which is held. A corrected word goes back into its SRAM with the read itself: what it holds is its corrected value already. -/
def State.scrubRead (s : State) (u : Nat) (errs : List ErrArg) (last : Bool) : State :=
  if !s.scrubEn then s
  else
    let q := s.scrubOf u
    if u < 64 then
      let sec := u * 2 ^ 29 + q.pos
      let unit := (errs.head?.map ErrArg.unit).getD (8 * u)
      let at_ := fun (kind : Nat) => { hop := 0, kind := kind, die := u / 16, sector := 255, unit := unit, pa := 32 * sec : ErrArg }
      let unc := (SMap.look s.bad sec).isSome || errs.any (fun e => e.kind != 0)
      let s1 := if unc then s.takeError (at_ 2) none else if errs.isEmpty then s else s.takeError (at_ 0) none
      let q1 := { q with pos := q.pos + 1, held := if unc || errs.isEmpty then q.held else some (sec, s.bytesAt (32 * sec) 32) }
      if q1.pos = groupSectors then s1.scrubEnd u q1
      else { s1 with scrubs := SMap.ins s1.scrubs u { q1 with take := s1.scrubBehind q1 } }
    else
      let s1 := errs.foldl (fun s e => s.takeError { e with kind := if e.kind = 0 then 0 else 2 } none) s
      let q1 := { q with pos := q.pos + 1 }
      if last then s1.scrubEnd u q1 else { s1 with scrubs := SMap.ins s1.scrubs u q1 }

/-- SCRUB_WRITEBACK (R389): performed where no demand write to the sector has been accepted since the read, else dropped. -/
def State.scrubWriteback (s : State) (u : Nat) : State :=
  let q := s.scrubOf u
  match q.held with
  | none => s
  | some (sec, bs) =>
    let s1 := { s with scrubs := SMap.ins s.scrubs u { q with held := none } }
    if s.bytesAt (32 * sec) 32 = bs then s1.putMem (32 * sec) bs else s1

/-- SCRUB_DEADLINE (R385, R388): a pass has not ended in time. -/
def State.scrubDeadline (s : State) (u : Nat) : State :=
  let q := s.scrubOf u
  if s.scrubEn && (SMap.look s.scrubs u).isSome && decide (q.start + q.limit < s.now) then s.errBit 10 else s

/-- SCRUB_TAKEOVER (R388): a unit that is behind takes precedence; an SRAM's progress is the unit's own to tell. -/
def State.scrubTakeover (s : State) (u : Nat) (behind : Bool) : State :=
  if !s.scrubEn || (SMap.look s.scrubs u).isNone then s
  else
    let q := s.scrubOf u
    { s with scrubs := SMap.ins s.scrubs u { q with take := if u < 64 then s.scrubBehind q else behind } }

/-- SCRUB_CTL read: TAKE while any unit's takeover is active (R390). -/
def State.scrubCtl (s : State) : W64 := s.csrGet 0x3020 ||| (if s.scrubs.any (fun e => e.2.take) then 0x100000000 else 0)

/-- SCRUB_CTL written (R11, R390): without EN no takeover is active; with EN set anew the deadlines run from here. -/
def State.scrubWrite (s : State) (v : W64) : State :=
  if field v 33 31 ≠ 0 ∨ field v 16 8 ≠ 0 ∨ field v 1 7 ≠ 0 then s.recordCfg
  else
    let s1 := s.csrSet 0x3020 (v &&& 0xFF00FF01)
    if !s1.scrubEn then { s1 with scrubs := SMap.mapV (fun _ (q : Scrub) => { q with take := false }) s1.scrubs }
    else if !s.scrubEn then { s1 with scrubs := SMap.mapV (fun _ (q : Scrub) => { q with start := s.now }) s1.scrubs } else s1

end Sys2Proof.Machine
end

