-- ==== Sys2Proof/Machine/Ports.lean ====
section
/-!
DEFINITION. Network ports: PORT_CTL, links, RoCEv2 queue pairs and keys, and writes that peers make (R190, R248, R335, R336, R367).
-/
namespace Sys2Proof.Machine

/-- A port. -/
def State.port (s : State) (k : Nat) : Port := (SMap.look s.ports k).getD {}

/-- PORT_CTL read (R335). -/
def State.portRead (s : State) (k : Nat) : W64 :=
  let p := s.port k
  BitVec.ofNat 64 (p.mode + 16 * p.rate + 256 * p.link)

/-- PORT_CTL_WRITE (R11, R335): a MODE write to a port that is up is ignored. DEDUCED (log 108): bits [3:2] and [7:6],
which R335 does not list, are taken as reserved. -/
def State.portWrite (s : State) (k : Nat) (v : W64) : State :=
  let p := s.port k
  let m := field v 0 2
  let r := field v 4 2
  if 16 ≤ k then s
  else if field v 2 2 ≠ 0 ∨ field v 6 2 ≠ 0 ∨ field v 16 48 ≠ 0 ∨ m = 3 ∨ r = 3 then s.recordCfg
  else if p.link = 2 ∧ m ≠ p.mode then s
  else { s with ports := SMap.ins s.ports k { p with mode := m, rate := r } }

/-- PORT_LINK_CHANGE (R335): 0 down, 1 training, 2 up. -/
def State.portLink (s : State) (k l : Nat) : State :=
  if 16 ≤ k ∨ 3 ≤ l then s else { s with ports := SMap.ins s.ports k { s.port k with link := l } }

/-- An answer to a peer. -/
def State.answerNet (s : State) (status : Nat) (bs : List Byte) : State := { s with netOut := (status, bs) }

/-- The physical bytes of a virtual range; none where a page is not mapped with the access asked for. -/
def State.physRange (s : State) (ck : Nat) (write : Bool) : Nat → Nat → Option (List Nat)
  | _, 0 => some []
  | va, n + 1 =>
    match s.lookup ck va with
    | .leaf e => if (if write then e.w else e.r) then (s.physRange ck write (va + 1) n).map (fun l => e.phys va :: l) else none
    | _ => none

/-- Bytes that come from outside, performed at .sys scope: a sector they cover whole holds fresh codes (R248, R336, R368). -/
def State.outsideWrite (s : State) (pas : List Nat) (bs : List Byte) : State :=
  let s1 := (pas.zip bs).foldl (fun (s : State) e => (s.setByte e.1 e.2).l2Pass e.1 true) s
  if s1.bad.isEmpty then s1
  else { s1 with bad := SMap.keep (fun k _ => !(upFrom (32 * k) 32).all (fun a => pas.contains a)) s1.bad }

/-- PEER_WRITE (R248, R335, R367): a Zenard peer's write arrives at a context's virtual address; where its page stands on HOLD it waits (R357). -/
def State.peerWrite (s : State) (port ck va : Nat) (bs : List Byte) : State :=
  let p := s.port port
  if p.mode ≠ 2 ∨ p.link ≠ 2 ∨ !s.live ck ∨ s.partPorts (ck / 8) / 2 ^ port % 2 = 0 then s.answerNet 4 []
  else if s.virtHeld ck va bs.length then s
  else match s.physRange ck true va bs.length with
    | some pas => ((s.outsideWrite pas bs).watchRange ck va (va + bs.length) 3 1 port 0).answerNet 0 []
    | none => s.answerNet 2 []

/-! The tables (R336). -/

/-- A queue pair's record: its key and contents, none for a field out of range. -/
def qpOf (b : List Byte) : Option (Nat × Qp) :=
  let q := blkField b 0 2
  let port := blkByte b 2
  let mtu := blkField b 6 2
  let n := blkField b 56 4
  let ok := decide (q < 4096 ∧ port < 16 ∧ blkByte b 3 < 16 ∧ blkByte b 4 < 8 ∧ blkByte b 5 < 8) && [1024, 2048, 4096].contains mtu
    && decide (blkByte b 11 = 0 ∧ blkByte b 15 = 0 ∧ blkByte b 19 = 0 ∧ blkByte b 46 ≤ 7 ∧ blkByte b 47 ≤ 31)
    && decide (blkField b 48 8 % 4096 = 0 ∧ blkField b 48 8 < 2 ^ 48 ∧ blkField b 64 8 % 8 = 0 ∧ blkField b 64 8 < 2 ^ 48)
    && ((upFrom 4 13).map (fun i => 2 ^ i)).contains n && zerosAt b 60 4 && zerosAt b 72 56
  if !ok then none
  else some (4096 * port + q,
    { ctx := 8 * blkByte b 3 + blkByte b 4, flags := blkByte b 5, mtu := mtu, dest := blkField b 8 3, sendPsn := blkField b 12 3,
      recvPsn := blkField b 16 3, gid := (b.drop 20).take 16, mac := (b.drop 36).take 6, udp := blkField b 42 2, tclass := blkByte b 44,
      hop := blkByte b 45, retry := blkByte b 46, ack := blkByte b 47, ring := blkField b 48 8, entries := n, count := blkField b 64 8,
      arrived := 0 })

/-- QP_SET: its RESULT (R336). -/
def State.qpSet (s : State) : State × Nat :=
  match qpOf (s.mg.data.take 128) with
  | none => (s, 2)
  | some (k, q) => if (s.port (k / 4096)).mode ≠ 1 ∨ !s.live q.ctx then (s, 3) else ({ s with qps := SMap.ins s.qps k q }, 0)

/-- QP_CLEAR (R336): the requests outstanding at the queue pair complete with a flush error. -/
def State.qpClear (s : State) (arg : Nat) : State × Nat :=
  let k := 4096 * (arg / 2 ^ 16) + arg % 4096
  let mine := fun (r : RoceReq) => 4096 * r.port + r.qp == k
  if arg / 2 ^ 12 % 16 ≠ 0 ∨ (SMap.look s.qps k).isNone then (s, 2)
  else
    let s1 := { s with qps := SMap.del s.qps k, roce := s.roce.filter (fun r => !mine r) }
    (if s.roce.any mine then s1.answerNet 5 [] else s1, 0)

/-- KEY_SET (R336). -/
def State.keySet (s : State) : State × Nat :=
  let b := s.mg.data.take 32
  let ck := 8 * blkByte b 4 + blkByte b 5
  let a := blkByte b 6
  if 16 ≤ blkByte b 4 ∨ 8 ≤ blkByte b 5 ∨ 4 ≤ a ∨ blkByte b 7 ≠ 0 ∨ !zerosAt b 24 8 ∨ 2 ^ 48 < blkField b 8 8 + blkField b 16 8 then (s, 2)
  else if !s.live ck then (s, 3)
  else
    let k : RKey := { ctx := ck, read := decide (a % 2 = 1), write := decide (a / 2 = 1), va := blkField b 8 8, len := blkField b 16 8 }
    ({ s with rkeys := SMap.ins s.rkeys (blkField b 0 4) k }, 0)

/-- KEY_CLEAR (R336). -/
def State.keyClear (s : State) (arg : Nat) : State × Nat :=
  if (SMap.look s.rkeys arg).isNone then (s, 2) else ({ s with rkeys := SMap.del s.rkeys arg }, 0)

/-! Requests (R335, R336). -/

/-- The enabled queue pair that a request names, its port in RoCEv2 mode, up and of its context's partition. -/
def State.qpUp (s : State) (port qp : Nat) : Option Qp :=
  match SMap.look s.qps (4096 * port + qp) with
  | some q => if (s.port port).mode = 1 ∧ (s.port port).link = 2 ∧ q.flags % 2 = 1 ∧ s.live q.ctx ∧ s.partPorts (q.ctx / 8) / 2 ^ port % 2 = 1 then some q else none
  | none => none

/-- A request waits: it is outstanding at its queue pair (R336, R357). -/
def State.roceWait (s : State) (r : RoceReq) : State := if s.roce.contains r then s else { s with roce := s.roce ++ [r] }

/-- A request that waits no more is carried out. -/
def State.roceGo (s : State) (r : RoceReq) : State := { s with roce := s.roce.filter (fun q => q != r) }

/-- ROCE_SEND (R336): the payload, its length, the source and last the arrival count in the next ring entry; none free is an RNR NAK. -/
def State.roceSend (s0 : State) (port qp src : Nat) (payload : List Byte) : State :=
  let r : RoceReq := { port := port, qp := qp, kind := 0, key := src, va := 0, bs := payload, n := 0 }
  let s := s0.roceGo r
  match s.qpUp port qp with
  | none => s.answerNet 4 []
  | some q =>
    if q.mtu < payload.length then s.answerNet 3 []
    else if s.virtHeld q.ctx q.count 8 then s0.roceWait r
    else match s.readVirt q.ctx q.count 8 with
      | none => s.answerNet 2 []
      | some c =>
        let base := q.ring + (q.mtu + 64) * (q.arrived % q.entries)
        let tail := leBytes 4 payload.length ++ leBytes 4 src ++ leBytes 8 (q.arrived + 1)
        if q.entries ≤ (q.arrived + 2 ^ 64 - ofLeBytes c) % 2 ^ 64 then s.answerNet 1 []
        else if s.virtHeld q.ctx base payload.length || s.virtHeld q.ctx (base + q.mtu) 16 then s0.roceWait r
        else
          match s.physRange q.ctx true base payload.length, s.physRange q.ctx true (base + q.mtu) 16 with
          | some p1, some p2 =>
            let s1 := ((s.outsideWrite p1 payload).outsideWrite p2 tail).watchRange q.ctx base (base + payload.length) 3 2 port 0
            let s2 := s1.watchRange q.ctx (base + q.mtu) (base + q.mtu + 16) 3 2 port 0
            { s2 with qps := SMap.ins s2.qps (4096 * port + qp) { q with arrived := (q.arrived + 1) % 2 ^ 64 } }.answerNet 0 []
          | _, _ => s.answerNet 2 []

/-- A request against a key lies in its range, has its access and the queue pair's leave (R336). -/
def State.keyFor (s : State) (q : Qp) (key va n : Nat) (write : Bool) : Bool :=
  match SMap.look s.rkeys key with
  | some k => k.ctx == q.ctx && (if write then k.write && q.flags.testBit 2 else k.read && q.flags.testBit 1)
      && decide (k.va ≤ va ∧ va + n ≤ k.va + k.len)
  | none => false

/-- RDMA_WRITE (R336): one that a HOLD entry holds back is not carried out yet. -/
def State.rdmaWrite (s0 : State) (port qp key va : Nat) (bs : List Byte) : State :=
  let r : RoceReq := { port := port, qp := qp, kind := 1, key := key, va := va, bs := bs, n := 0 }
  let s := s0.roceGo r
  match s.qpUp port qp with
  | none => s.answerNet 4 []
  | some q =>
    if !s.keyFor q key va bs.length true then s.answerNet 2 []
    else if s.virtHeld q.ctx va bs.length then s0.roceWait r
    else match s.physRange q.ctx true va bs.length with
      | some pas => ((s.outsideWrite pas bs).watchRange q.ctx va (va + bs.length) 3 2 port 0).answerNet 0 []
      | none => s.answerNet 2 []

/-- RDMA_READ (R336): likewise. -/
def State.rdmaRead (s0 : State) (port qp key va n : Nat) : State :=
  let r : RoceReq := { port := port, qp := qp, kind := 2, key := key, va := va, bs := [], n := n }
  let s := s0.roceGo r
  match s.qpUp port qp with
  | none => s.answerNet 4 []
  | some q =>
    if !s.keyFor q key va n false then s.answerNet 2 []
    else if s.virtHeld q.ctx va n then s0.roceWait r
    else match s.readVirt q.ctx va n with
      | some bs => s.answerNet 0 bs
      | none => s.answerNet 2 []

end Sys2Proof.Machine
end

