-- ==== Sys2Proof/Machine/Mgmt.lean ====
section
/-!
DEFINITION. The controller: the assay, resets and power, the management mailbox and firmware, heat that ends service, SPDM and TDISP, and
the clearing of VF Enable (R6, R329 to R334, R391 to R395, R415).
-/
namespace Sys2Proof.Machine

/-! The assay (R391 to R393). -/

/-- A physical cluster at the start of an assay: what the record store keeps of it. -/
def Phys.kept (p : Phys) : Phys :=
  { state := p.state, on := decide (p.state = 0), restAt := p.restAt, cap := p.cap }

/-- The machine as a reset leaves it before the assay: the host's memory, the record store and the firmware stay (R391, R395, R415). -/
def State.restarted (s : State) : State :=
  { State.reset with
    now := s.now, resetAt := s.now, agenda := s.agenda, fc := s.fc, nid := s.nid, host := s.host, hostNo := s.hostNo, elog := s.elog
    serve := s.serve, made := s.made, phys := SMap.mapV (fun _ (p : Phys) => p.kept) s.phys
    marks := s.marks, jmarks := s.jmarks, ckA := s.ckA, ckB := s.ckB, retired := s.retired, btiLog := s.btiLog, jsec := s.jsec, jhour := s.jhour, called := s.called
    onAt := s.onAt, sec0 := s.sec0, hours := s.hours, strain := s.strain, refills := s.refills
    interval := s.now / 840000, wearMs := s.now / 84000000, rotAt := s.rotAt
    hm := { s.hm with busy := false, page := 0, owed := 0 }
    mg := { step := 0, stored := s.mg.stored, running := s.mg.running, fused := s.mg.fused, heat := s.mg.heat }
    csr := SMap.keep (fun k _ => decide (k / 0x1000 = 1 ∧ k % 0x100 = 0x10)) s.csr }

/-- Assay hold (R393): the step and the cause; the core rails are unpowered. -/
def State.hold (s : State) (step cause : Nat) : State :=
  { s with mg := { s.mg with step := step, cause := cause }
           phys := (upFrom 0 1056).map (fun k => (k, { s.physAt k with on := false, inrush := 0 })) }

/-- What an assay finds of a physical cluster: its failed phases, its suspect bump groups, its calibration. -/
def assayPhases (a : AssayArg) (k : Nat) : Nat := ((a.phases.find? (fun e => e.1 == k)).map Prod.snd).getD 0
/-- See `assayPhases`. -/
def assayBumps (a : AssayArg) (k : Nat) : Nat := ((a.bumps.find? (fun e => e.1 == k)).map Prod.snd).getD 0
/-- See `assayPhases`. -/
def assayCal (a : AssayArg) (k : Nat) (p : Phys) : List Nat := ((a.vmin.find? (fun e => e.1 == k)).map Prod.snd).getD p.vmin

/-- Steps 3 and 4 for one physical cluster that is no billet (R391): retired where it fails one, capped where R370 says so. -/
def State.assayCluster (s : State) (a : AssayArg) (k : Nat) : State :=
  let p := s.physAt k
  if p.state = 2 ∨ p.state = 3 then s
  else match p.tested (a.dead.contains k) (assayPhases a k) (assayBumps a k) p.vmin with
    | none => s.retire k
    | some q => s.updPhys k (fun p => { p with failed := q.failed, phase := q.phase, bump := q.bump, cap := q.cap })

/-- Step 6 for one (R391): calibrated, or retired where no VMIN(10) lies at or below 0.80 V. -/
def State.assayCalibrate (s : State) (a : AssayArg) (k : Nat) : State :=
  let p := s.physAt k
  if p.state = 2 ∨ p.state = 3 then s
  else match p.tested false (assayPhases a k) (assayBumps a k) (assayCal a k p) with
    | none => s.retire k
    | some q => s.updPhys k (fun _ => q)

/-- Step 4 for a slice, a bridge or a ring macro (R391): its unit is retired. -/
def State.assayUnit (s : State) (u : Nat) : State :=
  if unitOk u && (unitPhys u).isNone then { s with retired := SMap.ins s.retired u () } else s

/-- Step 7 for one logical index (R391, R392): a retired cluster gives way to the die's next billet that passes its test; after one that fails
the next is called with cause 5. -/
def State.assayIndex : Nat → AssayArg → State → Nat → State × Bool
  | 0, _, s, _ => (s, false)
  | n + 1, a, s, c =>
    if (s.physAt (s.physOf c)).state ≠ 3 then (s, true)
    else match s.nextBillet (c / 256) with
      | none => (s, false)
      | some k =>
        let s1 := { s with called := SMap.ins s.called (c / 256) (SMap.read 0 s.called (c / 256) + 1) }
        let s1 := if n = 4 then s1 else s1.callRecord { clus := c, cause := 5, unit := 0xFFFF, base := 5, phys := none, begun := true } 5 (some k)
        match (s1.physAt k).tested (a.bad.contains k) (assayPhases a k) (assayBumps a k) (assayCal a k (s1.physAt k)) with
        | none => State.assayIndex n a (s1.retire k) c
        | some q => ({ s1 with serve := SMap.ins s1.serve c k }.updPhys k (fun _ => { q with state := 0, on := true }), true)

/-- THERMAL records that waited for the end of assay hold (R6). -/
def State.postHeat (s : State) : State := { s.mg.heat.foldl (fun s r => s.postRaw 16 r) s with mg := { s.mg with heat := [] } }

/-- The assay (R391): its seven steps in order, up to the first that fails; the stored image is verified at step 1 and starts (R394). -/
def State.assay (s : State) (a : AssayArg) : State :=
  let s0 := { s with mg := { s.mg with log := a.log } }
  let stops := fun n => a.fail == some n
  let early := fun (s : State) => { s with mg := { s.mg with past2 := false } }
  if !s.mg.stored.good || stops 1 then (early s0).hold 1 1
  else
    let s1 := { s0 with mg := { s0.mg with running := s.mg.stored, fused := max s.mg.fused s.mg.stored.ver } }
    if s1.storeBad || stops 2 then (early s1).hold 2 2
    else
      let s2 := a.units.foldl (fun s u => s.assayUnit u) ((upFrom 0 1056).foldl (fun s k => s.assayCluster a k) s1)
      if stops 5 then s2.hold 5 5
      else
        let s2 := (upFrom 0 1056).foldl (fun s k => s.assayCalibrate a k) s2
        let r := (upFrom 0 1024).foldl (fun (r : State × Bool) c =>
          if r.2 then State.assayIndex 5 a r.1 c else r) (s2, true)
        if !r.2 || stops 7 then r.1.hold 7 7
        else ({ r.1 with mg := { r.1.mg with step := 8, cause := 0 } }).postHeat

/-- The module restarts and runs the assay (R265, R322, R391). -/
def State.restart (s : State) (a : AssayArg) : State := if s.off then s else s.restarted.assay a

/-- MODULE_RESET (R265, R391): it runs the assay; a module in assay hold stays in it, which only a RESET command or a power cycle leaves
(R393). -/
def State.moduleReset (s : State) (a : AssayArg) : State :=
  if s.off ∨ s.mg.cause = 0 then s.restart a
  else State.hold { s.restarted with mg := { s.restarted.mg with past2 := s.mg.past2, log := s.mg.log } } s.mg.step s.mg.cause

/-- An image is valid (R394). -/
def fwValid (fused : Nat) (b : List Byte) : Bool :=
  let n := blkField b 8 4
  decide (512 ≤ b.length) && decide (blkField b 0 4 = 0x57425946) && zerosAt b 12 116
    && decide (fused ≤ blkField b 4 4)
    && Config.signatureOk (ofLeBytes (sha256 (b.take 128 ++ (b.drop 512).take n))) (blkField b 128 384)

/-- POWER_LOSS (R395, R415): what the journal does not hold is lost; an image being written fails step 1. -/
def State.powerLoss (s : State) : State :=
  if s.off then s
  else
    let bad := s.mg.commit && fwValid s.mg.fused ((s.mg.staging.map Prod.snd).getD [])
    { s.restarted with off := true, marks := s.recovered, sec0 := s.jsec, onAt := s.now
                       mg := { s.restarted.mg with stored := { s.mg.stored with good := s.mg.stored.good && !bad } } }

/-- POWER_ON (R391): power is applied and the assay runs. -/
def State.powerOn (s : State) (a : AssayArg) : State :=
  if !s.off then s else ({ s.restarted with onAt := s.now, sec0 := s.sec0, marks := s.recovered }).assay a

/-- THERMAL_SHUTDOWN (R6): at 115 °C every context is force-reset, the core rails go down and the module holds; its record is in the store
before, and on the PF ring once hold is left. The step and cause that MGMT_STAT shows are open. -/
def State.thermalShutdown (s : State) (k temp : Nat) : State :=
  if temp < 11500 ∨ s.off ∨ s.mg.cause ≠ 0 then s
  else
    let rec_ := mkRecord s.wall 0x0054 [(8, 2, s.logOf k), (10, 2, physField k), (12, 1, 3), (13, 1, (s.physAt k).cap), (14, 2, s.vsetNow k),
                                        (16, 4, temp)]
    let s1 := { s with elog := s.elog ++ [rec_], mg := { s.mg with heat := s.mg.heat ++ [rec_] } }
    let s2 := (SMap.keys s1.ctxs).foldl (fun s ck => s.forceReset ck) s1
    let r := s2.free
    r.2.hold (r.1.toNat % 9) (1 + r.1.toNat / 256 % 255)

/-! The management mailbox (R393, R395, R336). -/

/-- MGMT_STAT (R395). -/
def State.mgmtStat (s : State) : W64 :=
  let m := s.mg
  BitVec.ofNat 64 (m.commit.toNat + 2 ^ 8 * m.result + 2 ^ 16 * m.step + 2 ^ 24 * m.cause + 2 ^ 32 * m.outLen)

/-- A command's result and output. -/
def State.mgDone (s : State) (result : Nat) (out : List Byte) : State :=
  { s with mg := { s.mg with result := result, outLen := out.length, data := putAt s.mg.data 0 out } }

/-- A command taken unless one is busy (R395). -/
def State.mgCmd (s : State) (f : State → State) : State := if s.mg.commit || s.off then s else f s

/-- Bytes whose value the spec leaves open. -/
def State.freeBytes : Nat → State → List Byte × State
  | 0, s => ([], s)
  | n + 1, s =>
    let r := s.free
    let q := State.freeBytes n r.2
    (r.1.setWidth 8 :: q.1, q.2)

/-- STATUS (R395): ERR_STATUS, then a summary whose form is open. -/
def State.mgStatus (s : State) : State := s.mgCmd (fun s =>
  let r := s.free
  let q := State.freeBytes (r.1.toNat % 3833) r.2
  q.2.mgDone 0 (leBytes 8 (s.csrGet 0x3021).toNat ++ q.1))

/-- LOG (R395). -/
def State.mgLog (s : State) (off : Nat) : State := s.mgCmd (fun s =>
  if s.mg.log.length < off then s.mgDone 2 [] else s.mgDone 0 ((s.mg.log.drop off).take 3840))

/-- FW_BEGIN (R395). -/
def State.fwBegin (s : State) (n : Nat) : State := s.mgCmd (fun s =>
  if 2 ^ 25 < n then s.mgDone 2 [] else ({ s with mg := { s.mg with staging := some (n, []) } }).mgDone 0 [])

/-- FW_CHUNK (R395). -/
def State.fwChunk (s : State) (n : Nat) : State := s.mgCmd (fun s =>
  match s.mg.staging with
  | none => s.mgDone 3 []
  | some (len, bs) =>
    if len < bs.length + n ∨ 3840 < n then s.mgDone 2 []
    else ({ s with mg := { s.mg with staging := some (len, bs ++ s.mg.data.take n) } }).mgDone 0 [])

/-- FW_COMMIT (R395): verifying and writing begin, or the image is incomplete. -/
def State.fwCommit (s : State) : State := s.mgCmd (fun s =>
  match s.mg.staging with
  | some (len, bs) => if bs.length = len then { s with mg := { s.mg with commit := true } } else s.mgDone 3 []
  | none => s.mgDone 3 [])

/-- FW_COMMIT_DONE (R395): a valid image replaces the stored one, which runs from the next reset on. -/
def State.fwCommitDone (s : State) : State :=
  if !s.mg.commit then s
  else
    let b := (s.mg.staging.map Prod.snd).getD []
    if fwValid s.mg.fused b then
      ({ s with mg := { s.mg with commit := false
                                  stored := { good := true, ver := blkField b 4 4, digest := (sha256 b).take 8 } } }).mgDone 0 []
    else ({ s with mg := { s.mg with commit := false } }).mgDone 4 []

/-- A RoCEv2 table command (R336): RESULT 3 in assay hold. -/
def State.tableCmd (s : State) (f : State → State × Nat) : State := s.mgCmd (fun s =>
  if s.mg.cause ≠ 0 then s.mgDone 3 [] else let r := f s; r.1.mgDone r.2 [])

/-- RESET (R395). -/
def State.mgReset (s : State) (a : AssayArg) : State := s.mgCmd (fun s => s.restart a)

/-- MGMT_CMD written (R395, R336): any other OP gives RESULT 1. -/
def State.mgmtWrite (s : State) (v : W64) : State :=
  let len := field v 16 16
  let arg := field v 32 32
  if field v 8 8 ≠ 0 then s.recordCfg
  else match field v 0 8 with
    | 0x01 => s.mgStatus
    | 0x02 => s.mgLog arg
    | 0x10 => s.fwBegin arg
    | 0x11 => s.fwChunk len
    | 0x12 => s.fwCommit
    | 0x20 => s.mgReset { fail := none, dead := [], phases := [], bumps := [], vmin := [], bad := [], log := [] }
    | 0x30 => s.tableCmd State.qpSet
    | 0x31 => s.tableCmd (fun s => s.qpClear arg)
    | 0x32 => s.tableCmd State.keySet
    | 0x33 => s.tableCmd (fun s => s.keyClear arg)
    | _ => s.mgCmd (fun s => s.mgDone 1 [])

/-- MGMT_DATA written, 8 bytes. -/
def State.mgDataWrite (s : State) (at_ : Nat) (v : W64) : State :=
  { s with mg := { s.mg with data := putAt s.mg.data at_ (leBytes 8 v.toNat) } }

/-! SPDM (R329). The messages and their order are those of SPDM 1.2. -/

/-- An answer: its code and content. -/
def State.spdmReply (s : State) (r : List Nat) : State := { s with spdm := { s.spdm with reply := r } }

/-- ERROR (0x7F) with its code: 4 UnexpectedRequest, 7 UnsupportedRequest, 1 InvalidRequest. -/
def State.spdmError (s : State) (code : Nat) : State := s.spdmReply [0x7F, code]

/-- An answered request that needs the negotiation to stand at a phase. -/
def State.spdmAt (s : State) (phase : Nat) (f : State → State) : State :=
  if s.off then s else if s.spdm.phase < phase then s.spdmError 4 else f s

/-- GET_VERSION: 1.2; it begins anew. -/
def State.getVersion (s : State) : State :=
  if s.off then s else { s with spdm := { phase := 1, reply := [0x04, 0x12], secure := s.spdm.secure } }
/-- GET_CAPABILITIES. -/
def State.getCapabilities (s : State) : State := s.spdmAt 1 (fun s => ({ s with spdm := { s.spdm with phase := 2 } }).spdmReply [0x61])
/-- The module offers an algorithm (R329). -/
def algOffered : SpdmAlg → Bool
  | .rsassaPss3072 | .rsassaPkcs13072 | .sha256 | .ffdhe3072 | .aes256gcm => true
  | .other => false

/-- What an algorithm is for: 0 signature, 1 hash, 2 key exchange, 3 session AEAD, 4 none of these. -/
def algUse : SpdmAlg → Nat
  | .rsassaPss3072 | .rsassaPkcs13072 => 0
  | .sha256 => 1
  | .ffdhe3072 => 2
  | .aes256gcm => 3
  | .other => 4

/-- NEGOTIATE_ALGORITHMS (R329): a request that names no offered choice for one of the four uses is answered with ERROR
(UnsupportedRequest). -/
def State.negotiate (s : State) (named : List SpdmAlg) : State := s.spdmAt 2 (fun s =>
  if (List.range 4).all (fun u => named.any (fun a => algOffered a && algUse a == u)) then ({ s with spdm := { s.spdm with phase := 3 } }).spdmReply [0x63] else s.spdmError 7)
/-- GET_DIGESTS: slot 0 holds the attestation key's chain (R416). -/
def State.getDigests (s : State) : State := s.spdmAt 3 (fun s => s.spdmReply (0x01 :: (upFrom 0 32).map (fun i => (Config.signatureOf 1 i).toNat % 256)))
/-- GET_CERTIFICATE of slot 0. -/
def State.getCertificate (s : State) (slot off len : Nat) : State := s.spdmAt 3 (fun s =>
  if slot ≠ 0 then s.spdmError 1 else s.spdmReply (0x02 :: (upFrom off (min len 65535)).map (fun i => (Config.signatureOf 2 i).toNat % 256)))
/-- CHALLENGE. -/
def State.challenge (s : State) (slot nonce : Nat) : State := s.spdmAt 3 (fun s =>
  if slot ≠ 0 then s.spdmError 1 else s.spdmReply [0x03, nonce, (Config.signatureOf 3 nonce).toNat])
/-- A measurement: 1 the firmware, 2 the assay's result and the fuses, 3 the hallmark sequence, 0x10 + p a partition. -/
def State.measurement (s : State) (i : Nat) : Option (List Nat) :=
  if i = 1 then some ([(if s.mg.cause = 0 then s.mg.running.good else s.mg.stored.good).toNat, s.mg.running.ver, ofLeBytes s.mg.running.digest])
  else if i = 2 then some [s.mg.step, s.mg.cause, s.mg.fused]
  else if i = 3 then some [s.hm.shown]
  else if 0x10 ≤ i ∧ i < 0x20 then
    let p := i - 0x10
    some [(s.csrGet (0x1000 + 0x100 * p)).toNat, (s.partChan p).toNat, (s.partColour p).toNat, (s.csrGet (0x1020 + 0x100 * p)).toNat, (s.fe p).tdi]
  else none
/-- GET_MEASUREMENTS. -/
def State.getMeasurements (s : State) (i : Nat) : State := s.spdmAt 3 (fun s =>
  match s.measurement i with | some m => s.spdmReply (0x60 :: i :: m) | none => s.spdmError 1)
/-- KEY_EXCHANGE. -/
def State.keyExchange (s : State) (slot : Nat) : State := s.spdmAt 3 (fun s =>
  if slot ≠ 0 then s.spdmError 1 else ({ s with spdm := { s.spdm with session := 1 } }).spdmReply [0x64])
/-- FINISH: a proof that verifies establishes the session. -/
def State.finishSession (s : State) (proof : Bool) : State := s.spdmAt 3 (fun s =>
  if s.spdm.session ≠ 1 then s.spdmError 4
  else if proof then ({ s with spdm := { s.spdm with session := 2, keyGen := 0 } }).spdmReply [0x65]
  else ({ s with spdm := { s.spdm with session := 0 } }).spdmError 1)
/-- A request of an established session. -/
def State.inSession (s : State) (f : State → State) : State := s.spdmAt 3 (fun s => if s.spdm.session = 2 then f s else s.spdmError 4)
/-- HEARTBEAT. -/
def State.heartbeat (s : State) : State := s.inSession (fun s => s.spdmReply [0x68])
/-- KEY_UPDATE. -/
def State.keyUpdate (s : State) : State := s.inSession (fun s => ({ s with spdm := { s.spdm with keyGen := s.spdm.keyGen + 1 } }).spdmReply [0x69])
/-- END_SESSION. -/
def State.endSession (s : State) : State := s.inSession (fun s => ({ s with spdm := { s.spdm with session := 0 } }).spdmReply [0x6C])
/-- IDE_KM: keys programmed inside a session make a function's selective stream secure: 0 the PF's, 1 to 16 the VFs' (R329, R330). -/
def State.ideKm (s : State) (fn : Nat) (secure : Bool) : State := s.inSession (fun s =>
  (if fn = 0 then { s with spdm := { s.spdm with secure := secure } }
   else if fn ≤ 16 then s.updFe (fn - 1) (fun f => { f with secure := secure && f.vf }) else s).spdmReply [0x7E, fn])

/-! TDISP (R330). -/

/-- A TDISP error response, which changes nothing else. -/
def State.tdispError (s : State) : State := s.spdmReply [0x7E, 0x7F]

/-- LOCK_INTERFACE. -/
def State.lockInterface (s : State) (p : Nat) : State :=
  if p < 16 ∧ (s.fe p).vf ∧ (s.fe p).tdi = 0 ∧ s.mg.cause = 0 then s.updFe p (fun f => { f with tdi := 1 }) else s.tdispError
/-- START_INTERFACE. -/
def State.startInterface (s : State) (p : Nat) : State :=
  if p < 16 ∧ (s.fe p).vf ∧ (s.fe p).tdi = 1 ∧ (s.fe p).secure then s.updFe p (fun f => { f with tdi := 2 }) else s.tdispError
/-- STOP_INTERFACE (R330, R332): the partition's groups are erased; out of ERROR also where VF Enable was cleared. -/
def State.stopInterface (s : State) (p : Nat) : State :=
  if p < 16 ∧ (s.fe p).tdi ≠ 0 ∧ ((s.fe p).vf ∨ (s.fe p).tdi = 3) then (s.eraseGroups (s.partChan p)).updFe p (fun f => { f with tdi := 0 }) else s.tdispError
/-- IDE_INTEGRITY_FAILURE of function fn (R329, R330): the TLP is discarded; the PF's stream has no interface to move to ERROR. -/
def State.ideFailure (s : State) (fn : Nat) : State :=
  if fn = 0 then { s with spdm := { s.spdm with secure := false } }
  else if 1 ≤ fn ∧ fn ≤ 16 ∧ (s.fe (fn - 1)).vf ∧ (s.fe (fn - 1)).tdi ≠ 3 then s.enterError (fn - 1) else s

/-! Clearing VF Enable (R333, R334). -/

/-- One VF removed: its contexts reset and gone, its groups erased, its clusters in the PF pool. -/
def State.removeVf (s : State) (p : Nat) : State :=
  let cs := (List.range 8).filter (fun n => s.live (8 * p + n))
  let chan := s.partChan p
  let a := 0x1000 + 0x100 * p
  let s1 := cs.foldl (fun s n => s.dropCtx (8 * p + n)) (s.enterError p)
  let clus := upFrom (s.partBase p) (s.partLimit p - s.partBase p)
  let s2 := clus.foldl (fun s c => s.scrubCluster c) s1
  let s3 := (s2.l2Drop (fun _ l => l.part == p)).eraseGroups chan
  let s4 := ((((s3.csrSet a 0).csrSet (a + 1) 0).csrSet (a + 2) 0).csrSet (a + 3) 0).csrSet (a + 0x20) (csrReset (a + 0x20))
  let s5 := clus.foldl (fun s c => s.powerFree c) { s4 with rings := SMap.del s4.rings p, graphs := SMap.keep (fun k _ => k / 256 != p) s4.graphs,
                                                            mb := SMap.keep (fun k _ => k / 8 != p) s4.mb, slewOfs := SMap.del s4.slewOfs p }
  (s5.updFe p (fun f => { tdi := 3, vf := false, seq := f.seq })).divideChanged s

/-- VF_REMOVED (R334), in VF order once every group is erased; a group held back under R332 is not returned. -/
def State.vfRemoved (s old : State) (p : Nat) : State :=
  let ctxs := ((List.range 8).map (fun n => if old.live (8 * p + n) then 2 ^ n else 0)).sum
  let chan := old.partChan p
  s.post 16 0x0040 [(8, 1, p + 1), (9, 1, p), (10, 1, ctxs), (12, 4, old.partLimit p - old.partBase p),
    (16, 8, (((bitList chan).filter (fun g => !s.groupHeld g)).map (fun g => 2 ^ g)).sum),
    (24, 1, ((bitList chan).filter s.groupHeld).length)]

/-- The removal itself, once no resize at REMAPPING or later has to complete first. -/
def State.settleVf (s : State) : State :=
  if !s.vfClear ∨ s.rsz.isSome then s
  else
    let ps := (List.range 16).filter (fun p => (s.fe p).vf)
    let s1 := ps.foldl (fun s p => s.removeVf p) { s with vfClear := false }
    ps.foldl (fun t p => t.vfRemoved s p) s1

/-- Every interface is in ERROR and every front end has stopped launching; the contexts are reset with the rest of the removal (R333). -/
def State.vfStop (s : State) : State :=
  ((List.range 16).filter (fun p => (s.fe p).vf)).foldl (fun s p => s.updFe p (fun f => { f with tdi := 3, secure := false })) s

/-- VF_ENABLE_CLEAR (R333): a resize before REMAPPING is refused with cause 11; a later one completes first, and the removal applies to its
result. -/
def State.vfEnableClear (s : State) : State :=
  if s.off ∨ s.mg.cause ≠ 0 then s
  else
    let s1 := match s.rsz with | some r => if r.state ≤ 3 then s.refuseResize r 11 0 0 else s | none => s
    ({ s1 with vfClear := true }).vfStop.settleVf

end Sys2Proof.Machine
end

