-- ==== Sys2Proof/Machine/DevRegs.lean ====
section
/-!
DEFINITION. The device's registers as a program's SYSRD and SYSWR and the host's BAR accesses reach them (R11, R231, R232, R305, R315,
R316, R335, R341 to R346, R358, R359, R380, R381, R385, R390, R393, R395, R406, R412, R413, R417).
-/
namespace Sys2Proof.Machine

/-- The slot mask of a level (R371). -/
def pattern (k : Nat) : Nat :=
  ((List.range 16).map (fun i => if i * k / 16 < (i + 1) * k / 16 then 2 ^ i else 0)).sum

/-- CL_LEVEL (R381). -/
def State.clLevel (s : State) (c : Nat) : W64 :=
  let k := s.cluster c
  BitVec.ofNat 64 (2 ^ 40 * pattern (s.levelOf c) + 2 ^ 32 * k.sens + 2 ^ 24 * k.permits + 2 ^ 23 * (decide (k.fall ≠ 0)).toNat
    + 2 ^ 22 * k.slot.toNat + 2 ^ 21 * k.lease.isSome.toNat + 2 ^ 16 * k.grant + 2 ^ 8 * k.bid + s.levelOf c)

/-- CL_VOLT (R381). -/
def State.clVolt (s : State) (c : Nat) : W64 :=
  let k := s.physOf c
  let p := s.physAt k
  BitVec.ofNat 64 (2 ^ 32 * p.amps + 2 ^ 16 * p.canwarn + 2 ^ 8 * p.canofs + s.vsetNow k)

/-- CL_PHASE (R381). -/
def State.clPhase (s : State) (c : Nat) : W64 :=
  let p := s.physAt (s.physOf c)
  BitVec.ofNat 64 (2 ^ 16 * p.cap + 2 ^ 8 * p.bump + 16 * p.failed + p.phase)

/-- CL_STATE (R381). -/
def State.clState (s : State) (c : Nat) : W64 :=
  let k := s.physOf c
  let p := s.physAt k
  BitVec.ofNat 64 (2 ^ 27 * (k % 264 / 88) + 2 ^ 25 * (k / 264) + 2 ^ 16 * (k % 264) + 16 * (decide (p.inrush = 1 ∨ p.inrush = 3)).toNat
    + 8 * (decide (p.hold ≠ 0)).toNat + 4 * (decide (p.cap ≠ 0)).toNat + p.state)

/-- A partition, die or device selector read (R232); write-only ones read zero (R11). -/
def State.devRead (s : State) (sel : Nat) : W64 :=
  if sel / 0x1000 = 1 then
    let p := sel / 0x100 % 16
    let r := sel % 0x100
    if r ≤ 4 then s.partRead p r else if r = 8 then 0 else if r = 9 then s.resizeStat p else s.csrGet sel
  else if sel = 0x3000 then 0
  else if sel = 0x3001 then s.invStatus
  else if sel = 0x3020 then s.scrubCtl
  else if 0x8000 ≤ sel then
    let c := (sel - 0x8000) / 16
    match sel % 16 with | 0 => s.clLevel c | 1 => s.clVolt c | 2 => s.clPhase c | _ => s.clState c
  else s.csrGet sel

/-- A register that holds what was written, unless a reserved bit of `mask` is set (R11). -/
def State.plainWrite (s : State) (sel : Nat) (mask v : W64) : State := if v &&& mask ≠ 0 then s.recordCfg else s.csrSet sel v

/-- A partition, die or device selector written, by the PF or by a context of a level (R232). -/
def State.devWrite (s : State) (host : Bool) (ctx level : Nat) (rings : Bool) (sel : Nat) (v : W64) : State :=
  let p := sel / 0x100 % 16
  if sel / 0x1000 = 1 then
    let r := sel % 0x100
    if r ≤ 4 then s.partWrite p r v
    else if r = 8 then s.resizeCtl p host ctx level v
    else if r = 0x20 then
      (if host && decide (1 ≤ (s.fe p).tdi) then (if (s.fe p).tdi ≠ 3 then s.recordCfg.enterError p else s.recordCfg)
       else s.feModeWrite p v rings)
    else s
  else if sel / 0x1000 = 2 then
    match sel % 0x100 with
    | 0x00 => s.plainWrite sel 0xFFFF0000FF00FFFE v
    | 0x01 => s.plainWrite sel 0xFFFFFFFFFFFFFF00 v
    | 0x02 => s.plainWrite sel 0xFFFFFFFFFF000000 v
    | 0x10 => s.plainWrite sel 0xFFFFFF00000000FC v
    | _ => s
  else if sel = 0x3000 then s.invWrite host ctx v
  else if sel = 0x3010 then
    s.plainWrite sel 0xFFFFFFFFFFFFFFC0 (if field v 0 5 < 16 then (v &&& ~~~(0x1F#64)) ||| 16 else v)
  else if sel = 0x3020 then s.scrubWrite v
  else if sel = 0x3021 then s.errWrite v
  else if sel = 0x3030 then (s.plainWrite sel 0xFF00FF00FF000000 v).limitsReached
  else s

/-! The host's accesses (R315, R316, R330, R393). -/

/-- The module is in service: powered and not in assay hold. -/
def State.inService (s : State) : Bool := !s.off && decide (s.mg.cause = 0)

/-- A write to a front end's block from the PF (0), the VF with the T bit (1) or without it (2). -/
def State.hostFe (s : State) (p via off : Nat) (v : W64) (rings : Bool) : State :=
  if s.inService && decide (p < 16) then s.feWrite p via rings off v else s

/-- A write to an event ring's registers: a front end's, or 16 for the PF's. -/
def State.hostRing (s : State) (k via off : Nat) (v : W64) : State :=
  if k < 16 then s.hostFe k via off v false
  else if s.off ∨ via ≠ 0 then s
  else if off = 0x20 then s.ringBaseWrite 16 v
  else if off = 0x28 then s.ringCtlWrite 16 v
  else if off = 0x30 then s.ringHeadWrite 16 v
  else s

/-- A selector written through the PF's window (R315): per-context selectors name no context there. -/
def State.hostSel (s : State) (sel : Nat) (v : W64) (rings : Bool) : State :=
  if s.off || (!s.inService && sel != 0x3021) || decide (sel < 0x100) then s
  else match selRow sel with
    | some _ => s.devWrite true 0 2 rings sel v
    | none => s

/-- An aligned 8-byte write to the PF's BAR0 (R315). -/
def State.pfWrite (s : State) (off : Nat) (v : W64) (rings : Bool) : State :=
  if s.off || decide (off % 8 ≠ 0) then s
  else if off < 0x1000 then s.hostRing 16 0 off v
  else if off = 0x1000 then s.mgmtWrite v
  else if 0x1100 ≤ off ∧ off < 0x2000 then s.mgDataWrite (off - 0x1100) v
  else if 0x2000 ≤ off ∧ off < 0x2080 then s.portWrite ((off - 0x2000) / 8) v
  else if 0x3000 ≤ off ∧ off < 0x5000 then s.hmWrite (off - 0x3000) v
  else if 0x100000 ≤ off ∧ off < 0x200000 then s.hostFe ((off - 0x100000) / 0x10000) 0 (off % 0x10000) v rings
  else if 0x400000 ≤ off ∧ off < 0x1000000 then s.hostSel ((off - 0x400000) / 8) v rings
  else s

/-- REGISTER_WRITE (R11, R315): to the PF's BAR0 (0), or to a VF's with the T bit (1) or without it (2). -/
def State.registerWrite (s : State) (via vf off : Nat) (v : W64) (rings : Bool) : State :=
  if via = 0 then s.pfWrite off v rings
  else if 1 ≤ vf ∧ vf ≤ 16 ∧ off < 0x10000 ∧ off % 8 = 0 then s.hostFe (vf - 1) via off v rings
  else s

/-- An aligned 8-byte read of the PF's BAR0; none for Unsupported Request (R315, R393). -/
def State.pfRead (s : State) (off : Nat) : Option W64 :=
  if s.off || decide (off % 8 ≠ 0) then none
  else if off = 0x20 then some (s.ring 16).base
  else if off = 0x28 then some (s.ring 16).ctl
  else if off = 0x30 then some ((s.ring 16).head.setWidth 64)
  else if off = 0x38 then some ((s.ring 16).tail.setWidth 64)
  else if off = 0x1000 then some 0
  else if off = 0x1008 then some s.mgmtStat
  else if 0x1100 ≤ off ∧ off < 0x2000 then some (BitVec.ofNat 64 (ofLeBytes ((s.mg.data.drop (off - 0x1100)).take 8)))
  else if 0x2000 ≤ off ∧ off < 0x2080 then some (s.portRead ((off - 0x2000) / 8))
  else if 0x3000 ≤ off ∧ off < 0x5000 then some (s.hmRead (off - 0x3000))
  else if 0x100000 ≤ off ∧ off < 0x200000 then (if s.inService then s.feRead ((off - 0x100000) / 0x10000) 0 (off % 0x10000) else none)
  else if 0x400000 ≤ off ∧ off < 0x1000000 then
    let sel := (off - 0x400000) / 8
    if sel < 0x100 || (!s.inService && sel != 0x3021) || (selRow sel).isNone then none else some (s.devRead sel)
  else none

/-- An aligned 8-byte read of a VF's BAR0; none for Unsupported Request (R315, R330). -/
def State.vfRead (s : State) (via vf off : Nat) : Option W64 :=
  if s.inService && decide (1 ≤ vf ∧ vf ≤ 16 ∧ off < 0x10000 ∧ off % 8 = 0) then s.feRead (vf - 1) via off else none

/-- MB_OUT_READ (R327). -/
def State.hostMbOut (s : State) (p via n : Nat) : State :=
  if s.inService && decide (p < 16 ∧ n < 8) then s.feReadEffect p via (0x108 + 16 * n) else s

/-- UNSUPPORTED_REQUEST (R315): an access that is no aligned 8-byte access of a register changes nothing. -/
def State.unsupported (s : State) (_via _vf _off _size : Nat) : State := s

end Sys2Proof.Machine
end

