-- ==== Sys2Proof/Machine/System.lean ====
section
/-!
DEFINITION. SYSRD and SYSWR (R197, R231 to R233).
-/
namespace Sys2Proof.Machine

/-- The context number of the issuing group. -/
def State.curCk (s : State) : Nat :=
  ((s.cur.bind (fun gid => SMap.look s.groups gid)).bind (fun g => (s.gridOfTeam g.team).map Grid.ctx)).getD 0

/-- The selector is above the issuing context's level (R197, R232). -/
def State.selDenied (s : State) (sel : Nat) : Bool :=
  match selRow sel with
  | some r => decide (s.curCtx.level < levelNeeded s r (s.curCk / 8))
  | none => false

/-- A selector as a context reads it: its own, or the device's. -/
def State.selRead (s : State) (ck sel : Nat) : W64 :=
  if sel < 0x100 then ((SMap.look s.ctxs ck).getD {}).selGet ck sel else s.devRead sel

/-- SYSRD (R231): PRIVILEGE above the context's level, DETERMINISM of a V selector in a DET context. -/
def execSysrd (f : Yf) (s : State) : Host.Outcome State Fault Refusal :=
  let sel := f.sel.toNat
  if s.selDenied sel then trapAll (.sysrd f) f.g s 0x04
  else if s.curCtx.det && ((selRow sel).map SelRow.v).getD false then trapAll (.sysrd f) f.g s 0x11
  else issue (.sysrd f) f.g s (fun x s => .done (x.wks.foldl (fun s wk =>
    s.sset wk f.d.toNat (s.selRead (((s.gridOfTeam x.g.team).map Grid.ctx).getD 0) sel)) s) [])

/-- A selector as a context writes it. Whether the rings of a resident launch find room is open (R327). -/
def State.selWrite (s : State) (ck level sel : Nat) (v : W64) : State :=
  if sel < 0x100 then s.ctxSelWrite ck sel v
  else if sel / 0x1000 = 1 ∧ sel % 0x100 = 0x20 then let r := s.free; r.2.devWrite false ck level (r.1.getLsbD 0) sel v
  else s.devWrite false ck level true sel v

/-- SYSWR (R231, R241): after the warp's older accesses are performed at .sys scope. -/
def execSyswr (f : Yf) (s : State) : Host.Outcome State Fault Refusal :=
  let sel := f.sel.toNat
  if s.selDenied sel then trapAll (.syswr f) f.g s 0x04
  else warpWait (.syswr f) f.g s .order (fun g s wk =>
    if !s.relReady s.nid wk g.core .sys then none
    else
      let ck := ((s.gridOfTeam g.team).map Grid.ctx).getD 0
      some (s.selWrite ck (s.ctxOfTeam g.team).level sel (s.sget wk f.a.toNat)))

end Sys2Proof.Machine
end

