-- ==== Sys2Proof/Machine/Settle.lean ====
section
/-!
DEFINITION. What follows by itself from a turn of the schedule, before the next turn: conditions that the spec ties to no event of its
own are looked at, each once (R76, R96, R97, R157, R198, R200, R206, R225, R245, R287, R303, R319, R325, R333, R363).
-/
namespace Sys2Proof.Machine

/-- The completion of a rendezvous form by its instruction (R96). -/
def State.completeRdv (s : State) (id : Nat) (r : Rdv) : State × List TrapReq :=
  match r.instr with
  | .vrdlane f => (doneVrdlane f s r, [])
  | .vwrlane f => (doneVwrlane f s r, [])
  | .ballot f => (doneBallot f s r, [])
  | .vshfl f => (doneVshfl f s r, [])
  | .vmbcnt f => (doneVmbcnt f s r, [])
  | .vcvt8 f => (doneVcvt8 f s r, [])
  | .vcvtmx f => (doneVcvtmx f s r, [])
  | .stcmp f => doneCompact f true s id r
  | .ldexp f => doneCompact f false s id r
  | .fld f => doneFld f s id r
  | .fst f => doneFst f s id r
  | _ => (s, [])

/-- A thread's team stands on a core and its context runs. -/
def State.thRuns (s : State) (th : Nat) : Bool :=
  match SMap.look s.teams (teamOfTh th), s.gridOfTeam (teamOfTh th) with
  | some t, some g => t.at_ == .placed && s.running g.ctx
  | _, _ => false

/-- Instances whose missing lanes have exited, or that waited for the store queue, take effect (R96 rule 3, R150). -/
def State.settleRdvs (s : State) : State :=
  s.rdvs.foldl (fun s e =>
    match SMap.look s.rdvs e.1 with
    | some r =>
      if !r.members.isEmpty && r.members.all (fun m => s.thRuns m.th) && s.rdvComplete r then
        match s.rdvTraps r with
        | [] =>
          let c := s.completeRdv e.1 r
          (c.1.releaseRdv e.1 r).deliver c.2
        | ts => s.deliver ts
      else s
    | none => s) s

/-- Every team looked at for an FJOIN that all its threads have reached (R206). -/
def State.settleFjoins (s : State) : State :=
  s.teams.foldl (fun s e => if e.2.fjoined.isEmpty || !(s.gridOfTeam e.1).any (fun g => s.running g.ctx) then s else s.settleFjoin e.1) s

/-- Every event ring looked at for room (R325). -/
def State.settleRings (s : State) : State := (SMap.keys s.rings).foldl (fun s k => s.drainRing k) s

/-- A team stopped outside a hard halt, as when its cluster left a partition or a billet took over, goes back to a core with capacity
(R230, R348, R405, R408). -/
def State.settleStray (s : State) : State :=
  let moved := match s.rsz with | some r => r.moved | none => []
  s.teams.foldl (fun s e =>
    match SMap.look s.teams e.1, s.gridOfTeam e.1 with
    | some t, some g =>
      if t.at_ = .halted && !moved.contains e.1 && !g.travel && s.running g.ctx && !s.quiesced (g.ctx / 8) then (s.restoreUnit e.1).getD s
      else s
    | _, _ => s) s

/-- HALT entries that had to wait are looked at again (R230, R357). -/
def State.settleSaved (s : State) : State :=
  (SMap.keys s.warps).foldl (fun s wk =>
    let up := if wk % 2 = 1 then decide (wk / 2 / 64 < 4096) && (s.coreOf (wk / 2 / 64)).seg.isSome && ((s.coreOf (wk / 2 / 64)).ctx.map s.running).getD false
              else ((SMap.look s.warps wk).bind (fun w => SMap.look s.teams w.team)).any (fun t => t.at_ == .placed) && ((s.ctxOfWarp wk).map s.running).getD false
    if s.redoing wk && up then
      s.reinject wk (if wk % 2 = 1 then wk / 2 / 64 else (((SMap.look s.warps wk).bind (fun w => SMap.look s.teams w.team)).map Team.core).getD 0)
    else s) s

/-- The checks of a resize in QUIESCING are made again after every event (R397). -/
def State.settleResize (s : State) : State := s.resizeMigrate

/-- Segments left on a dark cluster move once a core of their partition is free (R295, R409). -/
def State.settleDark (s : State) : State :=
  let dark := ((s.segsOn ((s.clusters.filter (fun e => e.2.dark)).map Prod.fst)).map (fun e => e.1 / 4)).eraseDups
  if dark.isEmpty || s.rsz.isSome then s else s.moveSegments dark

/-- Everything looked at once. -/
def State.settleAll (s : State) : State :=
  let s1 := s.settleSaved.settleNotices.settleFences.settleQnt.settleRdvs.sweepRdvs
  let s2 := s1.settleJoins.settle.settleBars.settleFjoins.settleSuspend.settleEvict.settleHeld
  s2.settleHalts.settleSlices.settleResize.settleStray.settleDark.settleCalls.settleVf.settleRings.settleTables.hangReset

end Sys2Proof.Machine
end

