-- ==== Sys2Proof/Machine/Events.lean ====
section
/-!
DEFINITION. The meanings of the 129 events by which the device, the host and the world move the module. An event that is not enabled in
a state leaves it unchanged.
-/
namespace Sys2Proof.Machine

/-- A warp has a thread whose team stands on a core and whose context runs. -/
def State.wkRuns (s : State) (wk : Nat) : Bool := s.threads.any (fun e => e.2.wk == wk && s.thRuns e.1)

/-- A billet call stops the engines of its cluster (R421). -/
def State.engStopped (s : State) (core : Nat) : Bool := s.calls.any (fun q => q.clus == core / 4)

/-! Forming groups (R253, R254, R262). -/

/-- A group that gives its place up: it waits for a barrier, a join, a token, a message or a mailbox, or is parked. -/
def State.idleGroup (s : State) (g : Group) : Bool :=
  g.parked ||
    (match g.stall with
     | .barrier | .join | .token | .mailbox | .receiveList => true
     | .register => g.threads.any (s.tokenWait g)
     | _ => false)

/-- The ready threads of a core that may issue. -/
def State.readyOn (s : State) (core : Nat) : List (Nat × Thread) :=
  s.threads.filter (fun e => e.2.inTable && s.coreOfTh e.1 == core && s.thRuns e.1)

/-- A ready thread's age, in context cycles (R253). DESIGN CHOICE (log 35): a travelling thread's are its entry segment's cluster's. -/
def State.ageOf (s : State) (e : Nat × Thread) : Nat := s.teamCyc (teamOfTh e.1) - e.2.since

/-- The oldest of a list of ready threads, the first of equals. -/
def State.oldest (s : State) (l : List (Nat × Thread)) : Option (Nat × Thread) :=
  l.foldl (fun (b : Option (Nat × Thread)) e =>
    match b with
    | none => some e
    | some x => if s.ageOf x < s.ageOf e then some e else b) none

/-- The entry that the core takes next (R254 step 1): one whose oldest thread is older than 4,096 context cycles, oldest first; else the
one of highest priority, and among those the oldest. -/
def State.nextEntry (s : State) (core : Nat) : Option (Nat × Thread) :=
  let l := s.readyOn core
  match s.oldest (l.filter (fun e => decide (4096 < s.ageOf e))) with
  | some e => some e
  | none =>
    let prio := fun (e : Nat × Thread) => (s.ctxOfTeam (teamOfTh e.1)).prio
    let top := (l.map prio).foldl max 0
    s.oldest (l.filter (fun e => prio e == top))

/-- The threads that fill a group from an entry: for each lane the one of the lowest warp (R254 steps 2 and 3). DESIGN CHOICE
(log 151): on a segment core the lowest is by %tid, not by the slot. -/
def State.fillGroup (s : State) (core tk : Nat) (pc : W64) : List Nat :=
  let l := (s.readyOn core).filter (fun e => teamOfTh e.1 == tk && e.2.pc == pc)
  (List.range 32).filterMap (fun lane => ((l.find? (fun e => e.2.lane == lane)).map Prod.fst))

/-- A group may be formed on a core: its cluster is up, and fewer than 16 formed groups hold a place (R254). -/
def State.mayForm (s : State) (core : Nat) : Bool :=
  s.clusterUp (core / 4) && decide ((s.groups.filter (fun e => e.2.core == core && !s.idleGroup e.2
    && ((SMap.look s.teams e.2.team).map Team.at_) == some .placed)).length < 16)

/-- GROUP_FORM (R254). -/
def State.groupForm (s : State) (core : Nat) : State :=
  if !s.mayForm core then s
  else match s.nextEntry core with
    | none => s
    | some e => s.beginClause core (teamOfTh e.1) (s.fillGroup core (teamOfTh e.1) e.2.pc) e.2.pc

/-! Answers (R77, R160, R386). -/

/-- The context of an operation's warp. -/
def State.opCtx (s : State) (o : MemOp) : Option Nat :=
  match o.lanes with
  | l :: _ => (s.gridOfTeam (teamOfTh l.th)).map Grid.ctx
  | [] => none

/-- The L2 lines that an answer has come through (R149, R155, R160): those of a load's lanes that the L1 did not serve. -/
def State.opLines (s : State) (id : Nat) (lanes : W32) (l1 : Bool) : State :=
  match SMap.look s.ops id with
  | some o => if o.kind == .load && !l1 then s.l2Lanes o lanes false o.rdist else s
  | none => s

/-- The line that a merged write goes to, or a prefetch asks for (R150, R155). -/
def State.writeLine (s : State) (id : Nat) : State :=
  match SMap.look s.pend id, SMap.look s.ops id with
  | some p, _ => s.l2Look p.th p.core p.va.toNat p.pa true p.rdist
  | none, some o => if o.kind == .pref then s.l2Lanes o 0xFFFFFFFF false o.rdist else s
  | none, none => s

/-- The lines that a service warp's operations read and write, XOPEN and XCLOSE among them (R160, R162, R351): MA has no RDIST, and they enter
at .near (assumption 136). -/
def State.serviceLines (s : State) (inst : Nat) : State :=
  s.ops.foldl (fun (s : State) e =>
    if e.2.inst == inst && (e.2.kind == .atomic || e.2.kind == .cas || e.2.kind == .xopen || e.2.kind == .xclose) then s.l2Lanes e.2 0xFFFFFFFF true .near else s) s

/-- LOAD_RETURN (R77): errors that the answer's checks find are taken first; then a load, a fragment, a returning atomic or a
scratchpad atomic goes on. A return under an older generation tag is dropped (R365). -/
def State.opReturn (s : State) (id : Nat) (lanes : W32) (pieces : Nat) (l1 fill : Bool) (errs : List ErrArg) : State :=
  match SMap.look s.ops id with
  | none => s
  | some o =>
    let s1 := errs.foldl (fun s e => s.takeError e (s.opCtx o)) s
    let s2 := match o.kind, o.frag with
      | .load, some e => if s.dropsReturn o then s1 else s1.fragReturn id o e
      | .load, none => if s.dropsReturn o then s1 else s1.loadReturn id o lanes pieces l1 fill
      | .atomic, _ | .cas, _ =>
        if o.lanes.any (fun l => l.space != .glob) then s1.bankAtomic o
        else if s.dropsReturn o then s1
        else if l1 && o.use_ == .spec then s1.specFail id o lanes
        else s1.atomReturn id o lanes
      | _, _ => s1
    (o.lanes.map LaneAcc.th).foldl (fun s th => s.refreshImage th) s2

/-! The engines (R178, R190, R193, R421). -/

/-- MMA_PASS (R178): a pass of an MMA in its engine's table; a first pass needs its team running and no billet call on its cluster. -/
def State.enginePass (s : State) (id : Nat) (faulty : List (Nat × Nat)) (resid cured : Nat) : State :=
  match SMap.look s.eng id with
  | none => s
  | some o =>
    let nv := ((s.gridOfTeam (teamOfTh o.th)).map Grid.nv).getD 0
    match mmaPar nv o.blk with
    | some p =>
      if o.kind = 2 && decide (o.core < 4096) && (o.begun || (s.thRuns o.th && !s.engStopped o.core)) then s.mmaPass id o p faulty resid cured
      else s
    | none => s

/-- A CPYR of the context that overlaps a copy waits for it, and runs to completion through a halt (R189, R193). -/
def State.cpyrBehind (s : State) (id : Nat) (o : EngOp) : Bool :=
  let locks := (s.cluster (o.core / 4)).locks
  (locks.find? (fun l => l.op == id)).any (fun m => locks.any (fun l => decide (id < l.op) && ((SMap.look s.eng l.op).map EngOp.kind) == some 8
    && l.ctx == o.ctx && m.dst.any (meets l.src)))

/-- COPY_PASS (R190): a block of a copy; CPYR runs to completion through a halt (R193). -/
def State.copyStep (s : State) (id : Nat) : State :=
  match SMap.look s.eng id with
  | none => s
  | some o =>
    match descOf o.kind (BitVec.ofNat 64 o.port) o.blk with
    | some c =>
      if o.kind ≠ 2 ∧ o.core < 4096 ∧ (o.kind = 8 ∨ s.thRuns o.th ∨ s.cpyrBehind id o) ∧ !s.engStopped o.core then s.copyPass id o c else s
    | none => s

/-- CPYR_ACK (R190). -/
def State.copyAcked (s : State) (id : Nat) : State :=
  match SMap.look s.eng id with
  | some o => s.copyAck id o
  | none => s

/-! Timers (R104, R222, R374). -/

/-- SLEEP_TIMEOUT (R222): a sleeping thread's limit has passed. -/
def State.sleepTimeout (s : State) (th : Nat) : State :=
  match SMap.look s.threads th with
  | none => s
  | some t =>
    match t.stat, t.sleepEnd with
    | .asleep, some n => if n.toNat ≤ s.teamCyc (teamOfTh th) - t.sleepAt then s.wake th else s
    | _, _ => s

/-- SLEW_RESUME (R374): a cluster's turn after a grid barrier has come. -/
def State.slewResume (s : State) (c : Nat) : State :=
  match (s.cluster c).slewed with
  | some t => if t ≤ s.now then { s with clusters := SMap.ins s.clusters c { s.cluster c with slewed := none } } else s
  | none => s

/-! One meaning for each event. -/

/-- GROUP_FORM (R254). -/
def execEvGroupForm (core : Nat) (s : State) : Host.Outcome State Fault Refusal :=
  .next (s.groupForm core)

/-- LOAD_RETURN (R77). -/
def execEvLoadReturn (op : Nat) (lanes : W32) (pieces : Nat) (l1 fill : Bool) (errs : List ErrArg) (s : State) : Host.Outcome State Fault Refusal :=
  .next ((s.opLines op lanes l1).opReturn op lanes pieces l1 fill errs)

/-- STORE_DRAIN (R150). -/
def execEvStoreDrain (warp : Nat) (s : State) : Host.Outcome State Fault Refusal :=
  .next (s.storeDrain warp)

/-- SERVICE_WARP_REQUEST (R301). -/
def execEvServiceWarpRequest (inst clus : Nat) (s : State) : Host.Outcome State Fault Refusal :=
  .next ((s.serviceLines inst).serveRequest inst clus)

/-- QNT_APPLY (R245). -/
def execEvQntApply (op : Nat) (s : State) : Host.Outcome State Fault Refusal :=
  .next (s.applyQnt op)

/-- DEFERRED_FAULT (R427). -/
def execEvDeferredFault (op : Nat) (merged : Bool) (s : State) : Host.Outcome State Fault Refusal :=
  .next (if merged then s.faultPend op else s.faultOp op)

/-- EXTENT_MISS_RESOLVED (R357). -/
def execEvExtentMissResolved (warp entry victim : Nat) (s : State) : Host.Outcome State Fault Refusal :=
  .next (if s.wkRuns warp && !s.missWaits warp entry then s.missResolved warp entry victim else s)

/-- MMA_PASS (R178). -/
def execEvMmaPass (op : Nat) (faulty : List (Nat × Nat)) (resid : Resid) (s : State) : Host.Outcome State Fault Refusal :=
  .next (s.enginePass op faulty resid.again resid.cured)

/-- COPY_PASS (R190). -/
def execEvCopyPass (op : Nat) (s : State) : Host.Outcome State Fault Refusal :=
  .next (s.copyStep op)

/-- CPYR_ACK (R190). -/
def execEvCpyrAck (op : Nat) (s : State) : Host.Outcome State Fault Refusal :=
  .next (s.copyAcked op)

/-- LINK_FAILURE (R190). -/
def execEvLinkFailure (port : Nat) (s : State) : Host.Outcome State Fault Refusal :=
  .next (s.linkFail port)

/-- FORK_ACCEPT (R203). -/
def execEvForkAccept (fork : Nat) (room rings : Bool) (s : State) : Host.Outcome State Fault Refusal :=
  .next (s.forkAccept fork room rings)

/-- FJOIN_RESUME (R206). -/
def execEvFjoinResume (team : Nat) (s : State) : Host.Outcome State Fault Refusal :=
  .next (s.fjoinResume team)

/-- TEAM_RETIRE (R207). -/
def execEvTeamRetire (team : Nat) (s : State) : Host.Outcome State Fault Refusal :=
  .next (s.teamRetire team)

/-- MESSAGE_ARRIVAL (R212). -/
def execEvMessageArrival (n : Nat) (s : State) : Host.Outcome State Fault Refusal :=
  .next (s.messageArrival n)

/-- PARCEL_ENQUEUE (R216). -/
def execEvParcelEnqueue (n : Nat) (s : State) : Host.Outcome State Fault Refusal :=
  .next (s.parcelEnqueue n)

/-- PARCEL_SPILL (R286). -/
def execEvParcelSpill (n : Nat) (s : State) : Host.Outcome State Fault Refusal :=
  .next (s.parcelSpill n)

/-- PARCEL_ADMIT (R285). -/
def execEvParcelAdmit (core lane : Nat) (s : State) : Host.Outcome State Fault Refusal :=
  .next (if ((s.coreOf core).ctx.map s.running).getD false && s.clusterUp (core / 4) then s.parcelAdmit core lane else s)

/-- RING_DRAIN (R286). -/
def execEvRingDrain (core : Nat) (s : State) : Host.Outcome State Fault Refusal :=
  .next (s.ringDrain core)

/-- SEGREP_COMPLETE (R218). -/
def execEvSegrepComplete (id : Nat) (s : State) : Host.Outcome State Fault Refusal :=
  .next (s.segrepComplete id)

/-- SEGHOT (R289). -/
def execEvSeghot (grid seg : Nat) (s : State) : Host.Outcome State Fault Refusal :=
  .next (s.seghot grid seg)

/-- WTIMER_EXPIRE (R104). -/
def execEvWtimerExpire (warp : Nat) (s : State) : Host.Outcome State Fault Refusal :=
  .next (if s.wkRuns warp then s.expireTimer warp else s)

/-- SLEEP_TIMEOUT (R222). -/
def execEvSleepTimeout (th : Nat) (s : State) : Host.Outcome State Fault Refusal :=
  .next (if s.thRuns th then s.sleepTimeout th else s)

/-- SLEW_RESUME (R374). -/
def execEvSlewResume (clus : Nat) (s : State) : Host.Outcome State Fault Refusal :=
  .next (s.slewResume clus)

/-- HANG (R305). -/
def execEvHang (ctx : Nat) (s : State) : Host.Outcome State Fault Refusal :=
  .next (s.hang ctx)

/-- TEAM_PLACE (R255). -/
def execEvTeamPlace (part : Nat) (s : State) : Host.Outcome State Fault Refusal :=
  .next (s.teamPlace part)

/-- TEAM_PROTECTION (R257). -/
def execEvTeamProtection (team : Nat) (s : State) : Host.Outcome State Fault Refusal :=
  .next (s.teamProtect team)

/-- SLICE_END (R319). -/
def execEvSliceEnd (part : Nat) (s : State) : Host.Outcome State Fault Refusal :=
  .next (s.sliceEnd part)

/-- SOFT_DRAIN_DEADLINE (R365). -/
def execEvSoftDrainDeadline (ctx : Nat) (s : State) : Host.Outcome State Fault Refusal :=
  .next (s.softDrainDeadline ctx)

/-- HALT_COMPLETE (R365). -/
def execEvHaltComplete (ctx : Nat) (s : State) : Host.Outcome State Fault Refusal :=
  .next (s.haltComplete ctx)

/-- HARD_HALT_LIMIT (R365). -/
def execEvHardHaltLimit (ctx : Nat) (s : State) : Host.Outcome State Fault Refusal :=
  .next (s.hardHaltLimit ctx)

/-- CONTEXT_RESTORE (R365). -/
def execEvContextRestore (part : Nat) (s : State) : Host.Outcome State Fault Refusal :=
  .next (s.contextRestore part)

/-- FE_MODE_WRITE (R317). -/
def execEvFeModeWrite (part via : Nat) (v : W64) (rings : Bool) (s : State) : Host.Outcome State Fault Refusal :=
  .next (s.hostFe part via 0x0000 v rings)

/-- CTX_CREATE (R318). -/
def execEvCtxCreate (part via : Nat) (v : W64) (s : State) : Host.Outcome State Fault Refusal :=
  .next (if v.getLsbD 3 then s else s.hostFe part via 0x0010 v false)

/-- CTX_DESTROY (R318). -/
def execEvCtxDestroy (part via : Nat) (v : W64) (s : State) : Host.Outcome State Fault Refusal :=
  .next (if v.getLsbD 3 then s.hostFe part via 0x0010 v false else s)

/-- GRAPH_LOAD (R320). -/
def execEvGraphLoad (part via : Nat) (v : W64) (s : State) : Host.Outcome State Fault Refusal :=
  .next (if v.getLsbD 8 then s else s.hostFe part via 0x0040 v false)

/-- GRAPH_UNLOAD (R320). -/
def execEvGraphUnload (part via : Nat) (v : W64) (s : State) : Host.Outcome State Fault Refusal :=
  .next (if v.getLsbD 8 then s.hostFe part via 0x0040 v false else s)

/-- GRAPH_DONE (R320). -/
def execEvGraphDone (part : Nat) (room : Bool) (s : State) : Host.Outcome State Fault Refusal :=
  .next (s.graphDone part room)

/-- TRIGGER (R322). -/
def execEvTrigger (part via : Nat) (v : W64) (s : State) : Host.Outcome State Fault Refusal :=
  .next (s.hostFe part via 0x0058 v false)

/-- RUN_START (R323). -/
def execEvRunStart (ctx : Nat) (s : State) : Host.Outcome State Fault Refusal :=
  .next (s.runStart ctx)

/-- NODE_LAUNCH (R323). -/
def execEvNodeLaunch (ctx : Nat) (rings : Bool) (s : State) : Host.Outcome State Fault Refusal :=
  .next (s.nodeLaunch ctx rings)

/-- RING_HEAD_WRITE (R325). -/
def execEvRingHeadWrite (ring via : Nat) (v : W64) (s : State) : Host.Outcome State Fault Refusal :=
  .next (s.hostRing ring via 0x0030 v)

/-- RING_INTERRUPT_TIMER (R325). -/
def execEvRingInterruptTimer (ring : Nat) (s : State) : Host.Outcome State Fault Refusal :=
  .next (s.ringTimer ring)

/-- MB_IN_WRITE (R327). -/
def execEvMbInWrite (part via n : Nat) (v : W64) (s : State) : Host.Outcome State Fault Refusal :=
  .next (if n < 8 then s.hostFe part via (0x0100 + 16 * n) v false else s)

/-- MB_OUT_READ (R327). -/
def execEvMbOutRead (part via n : Nat) (s : State) : Host.Outcome State Fault Refusal :=
  .next (s.hostMbOut part via n)

/-- MB_STAT_CLEAR (R327). -/
def execEvMbStatClear (part via : Nat) (v : W64) (s : State) : Host.Outcome State Fault Refusal :=
  .next (s.hostFe part via 0x0080 v false)

/-- REGISTER_WRITE (R11). -/
def execEvRegisterWrite (via vf off : Nat) (v : W64) (rings : Bool) (s : State) : Host.Outcome State Fault Refusal :=
  .next (s.registerWrite via vf off v rings)

/-- UNSUPPORTED_REQUEST (R315). -/
def execEvUnsupportedRequest (via vf off size : Nat) (s : State) : Host.Outcome State Fault Refusal :=
  .next (s.unsupported via vf off size)

/-- WATCH_CTL_WRITE (R366). -/
def execEvWatchCtlWrite (ctx via n : Nat) (v : W64) (s : State) : Host.Outcome State Fault Refusal :=
  .next (if n < 4 then s.hostFe (ctx / 8) via (0x4000 + 0x800 * (ctx % 8) + 8 * (0x14 + n)) v false else s)

/-- ERR_STATUS_CLEAR (R385). -/
def execEvErrStatusClear (v : W64) (s : State) : Host.Outcome State Fault Refusal :=
  .next (s.hostSel 0x3021 v false)

/-- GET_VERSION (R329). -/
def execEvGetVersion (s : State) : Host.Outcome State Fault Refusal :=
  .next (s.getVersion)

/-- GET_CAPABILITIES (R329). -/
def execEvGetCapabilities (s : State) : Host.Outcome State Fault Refusal :=
  .next (s.getCapabilities)

/-- NEGOTIATE_ALGORITHMS (R329). -/
def execEvNegotiateAlgorithms (named : List SpdmAlg) (s : State) : Host.Outcome State Fault Refusal :=
  .next (s.negotiate named)

/-- GET_DIGESTS (R329). -/
def execEvGetDigests (s : State) : Host.Outcome State Fault Refusal :=
  .next (s.getDigests)

/-- GET_CERTIFICATE (R329). -/
def execEvGetCertificate (slot off len : Nat) (s : State) : Host.Outcome State Fault Refusal :=
  .next (s.getCertificate slot off len)

/-- CHALLENGE (R329). -/
def execEvChallenge (slot nonce : Nat) (s : State) : Host.Outcome State Fault Refusal :=
  .next (s.challenge slot nonce)

/-- GET_MEASUREMENTS (R329). -/
def execEvGetMeasurements (index : Nat) (s : State) : Host.Outcome State Fault Refusal :=
  .next (s.getMeasurements index)

/-- KEY_EXCHANGE (R329). -/
def execEvKeyExchange (slot : Nat) (s : State) : Host.Outcome State Fault Refusal :=
  .next (s.keyExchange slot)

/-- FINISH (R329). -/
def execEvFinish (proof : Bool) (s : State) : Host.Outcome State Fault Refusal :=
  .next (s.finishSession proof)

/-- HEARTBEAT (R329). -/
def execEvHeartbeat (s : State) : Host.Outcome State Fault Refusal :=
  .next (s.heartbeat)

/-- KEY_UPDATE (R329). -/
def execEvKeyUpdate (s : State) : Host.Outcome State Fault Refusal :=
  .next (s.keyUpdate)

/-- END_SESSION (R329). -/
def execEvEndSession (s : State) : Host.Outcome State Fault Refusal :=
  .next (s.endSession)

/-- IDE_KM (R329). -/
def execEvIdeKm (fn : Nat) (secure : Bool) (s : State) : Host.Outcome State Fault Refusal :=
  .next (s.ideKm fn secure)

/-- LOCK_INTERFACE (R330). -/
def execEvLockInterface (part : Nat) (s : State) : Host.Outcome State Fault Refusal :=
  .next (s.lockInterface part)

/-- START_INTERFACE (R330). -/
def execEvStartInterface (part : Nat) (s : State) : Host.Outcome State Fault Refusal :=
  .next (s.startInterface part)

/-- STOP_INTERFACE (R330). -/
def execEvStopInterface (part : Nat) (s : State) : Host.Outcome State Fault Refusal :=
  .next (s.stopInterface part)

/-- IDE_INTEGRITY_FAILURE (R330). -/
def execEvIdeIntegrityFailure (fn : Nat) (s : State) : Host.Outcome State Fault Refusal :=
  .next (s.ideFailure fn)

/-- VF_ENABLE_CLEAR (R333). -/
def execEvVfEnableClear (s : State) : Host.Outcome State Fault Refusal :=
  .next (s.vfEnableClear)

/-- PORT_CTL_WRITE (R335). -/
def execEvPortCtlWrite (port : Nat) (v : W64) (s : State) : Host.Outcome State Fault Refusal :=
  .next (if s.off then s else s.portWrite port v)

/-- PORT_LINK_CHANGE (R335). -/
def execEvPortLinkChange (port link : Nat) (s : State) : Host.Outcome State Fault Refusal :=
  .next (s.portLink port link)

/-- ROCE_SEND (R336). -/
def execEvRoceSend (port qp src : Nat) (payload : List Byte) (s : State) : Host.Outcome State Fault Refusal :=
  .next (s.roceSend port qp src payload)

/-- RDMA_WRITE (R336). -/
def execEvRdmaWrite (port qp key va : Nat) (data : List Byte) (s : State) : Host.Outcome State Fault Refusal :=
  .next (s.rdmaWrite port qp key va data)

/-- RDMA_READ (R336). -/
def execEvRdmaRead (port qp key va len : Nat) (s : State) : Host.Outcome State Fault Refusal :=
  .next (s.rdmaRead port qp key va len)

/-- PEER_WRITE (R248). -/
def execEvPeerWrite (port ctx va : Nat) (data : List Byte) (s : State) : Host.Outcome State Fault Refusal :=
  .next (s.peerWrite port ctx va data)

/-- STATUS (R395). -/
def execEvStatus (s : State) : Host.Outcome State Fault Refusal :=
  .next (s.mgStatus)

/-- LOG (R395). -/
def execEvLog (off : Nat) (s : State) : Host.Outcome State Fault Refusal :=
  .next (s.mgLog off)

/-- FW_BEGIN (R395). -/
def execEvFwBegin (len : Nat) (s : State) : Host.Outcome State Fault Refusal :=
  .next (s.fwBegin len)

/-- FW_CHUNK (R395). -/
def execEvFwChunk (len : Nat) (s : State) : Host.Outcome State Fault Refusal :=
  .next (s.fwChunk len)

/-- FW_COMMIT (R395). -/
def execEvFwCommit (s : State) : Host.Outcome State Fault Refusal :=
  .next (s.fwCommit)

/-- FW_COMMIT_DONE (R395). -/
def execEvFwCommitDone (s : State) : Host.Outcome State Fault Refusal :=
  .next (s.fwCommitDone)

/-- RESET (R395). -/
def execEvReset (found : AssayArg) (s : State) : Host.Outcome State Fault Refusal :=
  .next (s.mgReset found)

/-- QP_SET (R336). -/
def execEvQpSet (s : State) : Host.Outcome State Fault Refusal :=
  .next (s.tableCmd State.qpSet)

/-- QP_CLEAR (R336). -/
def execEvQpClear (qp : Nat) (s : State) : Host.Outcome State Fault Refusal :=
  .next (s.tableCmd (fun s => s.qpClear qp))

/-- KEY_SET (R336). -/
def execEvKeySet (s : State) : Host.Outcome State Fault Refusal :=
  .next (s.tableCmd State.keySet)

/-- KEY_CLEAR (R336). -/
def execEvKeyClear (key : Nat) (s : State) : Host.Outcome State Fault Refusal :=
  .next (s.tableCmd (fun s => s.keyClear key))

/-- POWER_ON (R391). -/
def execEvPowerOn (found : AssayArg) (s : State) : Host.Outcome State Fault Refusal :=
  .next (s.powerOn found)

/-- POWER_LOSS (R415). -/
def execEvPowerLoss (s : State) : Host.Outcome State Fault Refusal :=
  .next (s.powerLoss)

/-- THERMAL_STEP (R6). -/
def execEvThermalStep (phys temp : Nat) (s : State) : Host.Outcome State Fault Refusal :=
  .next (s.thermalStep phys temp)

/-- THERMAL_SHUTDOWN (R6). -/
def execEvThermalShutdown (phys temp : Nat) (s : State) : Host.Outcome State Fault Refusal :=
  .next (s.thermalShutdown phys temp)

/-- THERMAL_RELEASE (R6). -/
def execEvThermalRelease (phys temp : Nat) (s : State) : Host.Outcome State Fault Refusal :=
  .next (s.thermalRelease phys temp)

/-- POWER_INTERVAL_BOUNDARY (R375). -/
def execEvPowerIntervalBoundary (ms : List Meas) (s : State) : Host.Outcome State Fault Refusal :=
  .next (s.powerBoundary ms)

/-- VOLTAGE_SETTLED (R419). -/
def execEvVoltageSettled (clus : Nat) (s : State) : Host.Outcome State Fault Refusal :=
  .next (s.voltageSettled clus)

/-- PHASE_FAIL (R370). -/
def execEvPhaseFail (phys phase : Nat) (s : State) : Host.Outcome State Fault Refusal :=
  .next (s.phaseFail phys phase)

/-- BUMP_SUSPECT (R370). -/
def execEvBumpSuspect (phys group drop : Nat) (s : State) : Host.Outcome State Fault Refusal :=
  .next (s.bumpSuspect phys group drop)

/-- CANARY (R377). -/
def execEvCanary (phys : Nat) (s : State) : Host.Outcome State Fault Refusal :=
  .next (s.canary phys)

/-- CLUSTER_POWER_UP (R373). -/
def execEvClusterPowerUp (phys : Nat) (_fits : Bool) (s : State) : Host.Outcome State Fault Refusal :=
  .next (s.clusterPowerUp phys)

/-- INRUSH_RECHECK (R373). -/
def execEvInrushRecheck (phys : Nat) (_fits : Bool) (s : State) : Host.Outcome State Fault Refusal :=
  .next (s.inrushRecheck phys)

/-- INRUSH_SLOW (R373). -/
def execEvInrushSlow (phys : Nat) (s : State) : Host.Outcome State Fault Refusal :=
  .next (s.inrushSlow phys)

/-- RAMP_END (R373). -/
def execEvRampEnd (phys : Nat) (s : State) : Host.Outcome State Fault Refusal :=
  .next (s.rampEnd phys)

/-- ANNEAL (R405). -/
def execEvAnneal (die sector : Nat) (cal : List Nat) (_past : List (Nat × Nat)) (s : State) : Host.Outcome State Fault Refusal :=
  .next (s.anneal die sector cal)

/-- BILLET_CALL (R408). -/
def execEvBilletCall (die : Nat) (s : State) : Host.Outcome State Fault Refusal :=
  .next (s.billetCall die)

/-- BILLET_TEST_DONE (R392). -/
def execEvBilletTestDone (die : Nat) (pass : Bool) (cal : BilletFound) (s : State) : Host.Outcome State Fault Refusal :=
  .next (s.billetTestDone die pass cal.phases cal.bumps cal.vmin)

/-- WEAR_ACCRUAL (R403). -/
def execEvWearAccrual (ms : List WearMeas) (s : State) : Host.Outcome State Fault Refusal :=
  .next (s.wearAccrual ms)

/-- JOURNAL_WRITE (R415). -/
def execEvJournalWrite (s : State) : Host.Outcome State Fault Refusal :=
  .next (s.journalWrite)

/-- CHECKPOINT (R415). -/
def execEvCheckpoint (s : State) : Host.Outcome State Fault Refusal :=
  .next (s.checkpoint)

/-- BUDGET_REFILL (R410). -/
def execEvBudgetRefill (part : Nat) (s : State) : Host.Outcome State Fault Refusal :=
  .next (s.budgetRefill part)

/-- HM_CTL_GEN (R417). -/
def execEvHmCtlGen (v : W64) (s : State) : Host.Outcome State Fault Refusal :=
  .next (if s.off then s else s.hmCtl v)

/-- HALLMARK_DONE (R416). -/
def execEvHallmarkDone (s : State) : Host.Outcome State Fault Refusal :=
  .next (s.hallmarkDone)

/-- SCRUB_READ (R387). -/
def execEvScrubRead (unit : Nat) (errs : List ErrArg) (last : Bool) (s : State) : Host.Outcome State Fault Refusal :=
  .next (s.scrubRead unit errs last)

/-- SCRUB_WRITEBACK (R389). -/
def execEvScrubWriteback (unit : Nat) (s : State) : Host.Outcome State Fault Refusal :=
  .next (s.scrubWriteback unit)

/-- SCRUB_DEADLINE (R388). -/
def execEvScrubDeadline (unit : Nat) (s : State) : Host.Outcome State Fault Refusal :=
  .next (s.scrubDeadline unit)

/-- PARTITION_DIRECT_WRITE (R341). -/
def execEvPartitionDirectWrite (part reg : Nat) (v : W64) (s : State) : Host.Outcome State Fault Refusal :=
  .next (if part < 16 && reg ≤ 4 then s.hostSel (0x1000 + 0x100 * part + reg) v false else s)

/-- RESIZE_REQUEST (R348). -/
def execEvResizeRequest (part : Nat) (v : W64) (s : State) : Host.Outcome State Fault Refusal :=
  .next (if part < 16 && field v 0 2 == 0 then s.hostSel (0x1008 + 0x100 * part) v false else s)

/-- RESIZE_CANCEL (R348). -/
def execEvResizeCancel (part : Nat) (v : W64) (s : State) : Host.Outcome State Fault Refusal :=
  .next (if part < 16 && field v 0 2 == 1 then s.hostSel (0x1008 + 0x100 * part) v false else s)

/-- RESIZE_QUIESCING (R348). -/
def execEvResizeQuiescing (s : State) : Host.Outcome State Fault Refusal :=
  .next (s.resizeQuiesce)

/-- RESIZE_MIGRATING (R397). -/
def execEvResizeMigrating (s : State) : Host.Outcome State Fault Refusal :=
  .next (s.resizeMigrate)

/-- RESIZE_DEADLINE (R349). -/
def execEvResizeDeadline (s : State) : Host.Outcome State Fault Refusal :=
  .next (s.resizeDeadline)

/-- RESIZE_REMAPPING (R348). -/
def execEvResizeRemapping (s : State) : Host.Outcome State Fault Refusal :=
  .next (s.resizeRemap)

/-- RESIZE_REHASHING (R351). -/
def execEvResizeRehashing (s : State) : Host.Outcome State Fault Refusal :=
  .next (s.resizeRehash)

/-- RESIZE_SHOOTDOWN (R348). -/
def execEvResizeShootdown (s : State) : Host.Outcome State Fault Refusal :=
  .next (s.resizeShootdown)

/-- RESIZE_DONE (R350). -/
def execEvResizeDone (s : State) : Host.Outcome State Fault Refusal :=
  .next (s.resizeDone)

/-- INV_QUEUE (R358). -/
def execEvInvQueue (v : W64) (s : State) : Host.Outcome State Fault Refusal :=
  .next (s.hostSel 0x3000 v false)

/-- INV_COMMAND_START (R359). -/
def execEvInvCommandStart (s : State) : Host.Outcome State Fault Refusal :=
  .next (s.invStart)

/-- INV_DONE (R359). -/
def execEvInvDone (s : State) : Host.Outcome State Fault Refusal :=
  .next (s.invDoneNow)

/-- HINT_MISMATCH (R361). -/
def execEvHintMismatch (grid range _lookups _misses _remote _die : Nat) (s : State) : Host.Outcome State Fault Refusal :=
  .next (s.hintMismatch grid range)

/-- QUOTA_REBALANCE (R345). -/
def execEvQuotaRebalance (colour : Nat) (gains losses : List Nat) (s : State) : Host.Outcome State Fault Refusal :=
  .next (s.rebalance colour gains losses)

/-- MODULE_RESET (R391). -/
def execEvModuleReset (found : AssayArg) (s : State) : Host.Outcome State Fault Refusal :=
  .next (s.moduleReset found)

/-- WRITE_PERFORMED (R150). -/
def execEvWritePerformed (id : Nat) (pkg request fill : Bool) (s : State) : Host.Outcome State Fault Refusal :=
  .next (if request then (s.writeLine id).requestDone id fill else (if pkg then s.writeLine id else s).writePerformed id pkg)

/-- SCRUB_TAKEOVER (R388). -/
def execEvScrubTakeover (unit : Nat) (behind : Bool) (s : State) : Host.Outcome State Fault Refusal :=
  .next (s.scrubTakeover unit behind)

end Sys2Proof.Machine
end

