-- ==== Sys2Proof/Machine/Dispatch.lean ====
section
/-!
DEFINITION. Dispatch: one arm per row of the opcode table.
-/
namespace Sys2Proof.Machine

def exec (i : Instr) (s : State) : Host.Outcome State Fault Refusal :=
  match i with
  | .nop g => Sys2Proof.Machine.execNop g s
  | .sadd f => Sys2Proof.Machine.execSadd f s
  | .ssub f => Sys2Proof.Machine.execSsub f s
  | .smul f => Sys2Proof.Machine.execSmul f s
  | .smulh f => Sys2Proof.Machine.execSmulh f s
  | .sdiv f => Sys2Proof.Machine.execSdiv f s
  | .smin f => Sys2Proof.Machine.execSmin f s
  | .smax f => Sys2Proof.Machine.execSmax f s
  | .sand f => Sys2Proof.Machine.execSand f s
  | .sor f => Sys2Proof.Machine.execSor f s
  | .sxor f => Sys2Proof.Machine.execSxor f s
  | .sshl f => Sys2Proof.Machine.execSshl f s
  | .sshr f => Sys2Proof.Machine.execSshr f s
  | .sbfx f => Sys2Proof.Machine.execSbfx f s
  | .sbfi f => Sys2Proof.Machine.execSbfi f s
  | .sclz f => Sys2Proof.Machine.execSclz f s
  | .spopc f => Sys2Proof.Machine.execSpopc f s
  | .sset f => Sys2Proof.Machine.execSset f s
  | .ssel f => Sys2Proof.Machine.execSsel f s
  | .smov f => Sys2Proof.Machine.execSmov f s
  | .smovi f => Sys2Proof.Machine.execSmovi f s
  | .smovhi f => Sys2Proof.Machine.execSmovhi f s
  | .saddi f => Sys2Proof.Machine.execSaddi f s
  | .vrdlane f => Sys2Proof.Machine.execVrdlane f s
  | .vwrlane f => Sys2Proof.Machine.execVwrlane f s
  | .ballot f => Sys2Proof.Machine.execBallot f s
  | .pfrom f => Sys2Proof.Machine.execPfrom f s
  | .plog f => Sys2Proof.Machine.execPlog f s
  | .srd f => Sys2Proof.Machine.execSrd f s
  | .swr f => Sys2Proof.Machine.execSwr f s
  | .bra f => Sys2Proof.Machine.execBra f s
  | .brx f => Sys2Proof.Machine.execBrx f s
  | .call f => Sys2Proof.Machine.execCall f s
  | .callx f => Sys2Proof.Machine.execCallx f s
  | .ret f => Sys2Proof.Machine.execRet f s
  | .mkjoin f => Sys2Proof.Machine.execMkjoin f s
  | .join f => Sys2Proof.Machine.execJoin f s
  | .exit f => Sys2Proof.Machine.execExit f s
  | .yield f => Sys2Proof.Machine.execYield f s
  | .mbrd f => Sys2Proof.Machine.execMbrd f s
  | .mbwr f => Sys2Proof.Machine.execMbwr f s
  | .sleep f => Sys2Proof.Machine.execSleep f s
  | .evsig f => Sys2Proof.Machine.execEvsig f s
  | .vadd f => Sys2Proof.Machine.execVadd f s
  | .vsub f => Sys2Proof.Machine.execVsub f s
  | .vmul f => Sys2Proof.Machine.execVmul f s
  | .vmulh f => Sys2Proof.Machine.execVmulh f s
  | .vmad f => Sys2Proof.Machine.execVmad f s
  | .vmin f => Sys2Proof.Machine.execVmin f s
  | .vmax f => Sys2Proof.Machine.execVmax f s
  | .vabsd f => Sys2Proof.Machine.execVabsd f s
  | .vand f => Sys2Proof.Machine.execVand f s
  | .vor f => Sys2Proof.Machine.execVor f s
  | .vxor f => Sys2Proof.Machine.execVxor f s
  | .vshl f => Sys2Proof.Machine.execVshl f s
  | .vshr f => Sys2Proof.Machine.execVshr f s
  | .vbfx f => Sys2Proof.Machine.execVbfx f s
  | .vbfi f => Sys2Proof.Machine.execVbfi f s
  | .vclz f => Sys2Proof.Machine.execVclz f s
  | .vpopc f => Sys2Proof.Machine.execVpopc f s
  | .vaddc f => Sys2Proof.Machine.execVaddc f s
  | .vdot4 f => Sys2Proof.Machine.execVdot4 f s
  | .vperm f => Sys2Proof.Machine.execVperm f s
  | .vshfl f => Sys2Proof.Machine.execVshfl f s
  | .vmbcnt f => Sys2Proof.Machine.execVmbcnt f s
  | .vcmp f => Sys2Proof.Machine.execVcmp f s
  | .vsel f => Sys2Proof.Machine.execVsel f s
  | .vmov f => Sys2Proof.Machine.execVmov f s
  | .vmovi f => Sys2Proof.Machine.execVmovi f s
  | .vaddi f => Sys2Proof.Machine.execVaddi f s
  | .vfadd f => Sys2Proof.Machine.execVfadd f s
  | .vfsub f => Sys2Proof.Machine.execVfsub f s
  | .vfmul f => Sys2Proof.Machine.execVfmul f s
  | .vfma f => Sys2Proof.Machine.execVfma f s
  | .vfmin f => Sys2Proof.Machine.execVfmin f s
  | .vfmax f => Sys2Proof.Machine.execVfmax f s
  | .vfsgn f => Sys2Proof.Machine.execVfsgn f s
  | .vfcmp f => Sys2Proof.Machine.execVfcmp f s
  | .vfclass f => Sys2Proof.Machine.execVfclass f s
  | .vfrnd f => Sys2Proof.Machine.execVfrnd f s
  | .vfldx f => Sys2Proof.Machine.execVfldx f s
  | .vfdiv f => Sys2Proof.Machine.execVfdiv f s
  | .vfsqrt f => Sys2Proof.Machine.execVfsqrt f s
  | .vfrcp f => Sys2Proof.Machine.execVfrcp f s
  | .vfrsq f => Sys2Proof.Machine.execVfrsq f s
  | .vfexp2 f => Sys2Proof.Machine.execVfexp2 f s
  | .vflog2 f => Sys2Proof.Machine.execVflog2 f s
  | .vftanh f => Sys2Proof.Machine.execVftanh f s
  | .vfsigm f => Sys2Proof.Machine.execVfsigm f s
  | .vcvt f => Sys2Proof.Machine.execVcvt f s
  | .vcvt8 f => Sys2Proof.Machine.execVcvt8 f s
  | .vcvtmx f => Sys2Proof.Machine.execVcvtmx f s
  | .ld f => Sys2Proof.Machine.execLd f s
  | .st f => Sys2Proof.Machine.execSt f s
  | .sld f => Sys2Proof.Machine.execSld f s
  | .sst f => Sys2Proof.Machine.execSst f s
  | .lds f => Sys2Proof.Machine.execLds f s
  | .sts f => Sys2Proof.Machine.execSts f s
  | .ldx f => Sys2Proof.Machine.execLdx f s
  | .stx f => Sys2Proof.Machine.execStx f s
  | .stcmp f => Sys2Proof.Machine.execStcmp f s
  | .ldexp f => Sys2Proof.Machine.execLdexp f s
  | .pref f => Sys2Proof.Machine.execPref f s
  | .linv f => Sys2Proof.Machine.execLinv f s
  | .fence f => Sys2Proof.Machine.execFence f s
  | .atom f => Sys2Proof.Machine.execAtom f s
  | .acas f => Sys2Proof.Machine.execAcas f s
  | .atoms f => Sys2Proof.Machine.execAtoms f s
  | .acass f => Sys2Proof.Machine.execAcass f s
  | .xopen f => Sys2Proof.Machine.execXopen f s
  | .xclose f => Sys2Proof.Machine.execXclose f s
  | .fld f => Sys2Proof.Machine.execFld f s
  | .fst f => Sys2Proof.Machine.execFst f s
  | .mma f => Sys2Proof.Machine.execMma f s
  | .mstat f => Sys2Proof.Machine.execMstat f s
  | .cpyin f => Sys2Proof.Machine.execCpyin f s
  | .cpyst f => Sys2Proof.Machine.execCpyst f s
  | .cpyx f => Sys2Proof.Machine.execCpyx f s
  | .cpyg f => Sys2Proof.Machine.execCpyg f s
  | .cpyr f => Sys2Proof.Machine.execCpyr f s
  | .bndset f => Sys2Proof.Machine.execBndset f s
  | .bndget f => Sys2Proof.Machine.execBndget f s
  | .bndsel f => Sys2Proof.Machine.execBndsel f s
  | .twait f => Sys2Proof.Machine.execTwait f s
  | .tpoll f => Sys2Proof.Machine.execTpoll f s
  | .bar f => Sys2Proof.Machine.execBar f s
  | .bararv f => Sys2Proof.Machine.execBararv f s
  | .barwt f => Sys2Proof.Machine.execBarwt f s
  | .barq f => Sys2Proof.Machine.execBarq f s
  | .fork f => Sys2Proof.Machine.execFork f s
  | .fjoin f => Sys2Proof.Machine.execFjoin f s
  | .dqpush f => Sys2Proof.Machine.execDqpush f s
  | .dqpop f => Sys2Proof.Machine.execDqpop f s
  | .dqsteal f => Sys2Proof.Machine.execDqsteal f s
  | .msend f => Sys2Proof.Machine.execMsend f s
  | .mrecv f => Sys2Proof.Machine.execMrecv f s
  | .mprobe f => Sys2Proof.Machine.execMprobe f s
  | .go f => Sys2Proof.Machine.execGo f s
  | .gox f => Sys2Proof.Machine.execGox f s
  | .segrep f => Sys2Proof.Machine.execSegrep f s
  | .boost f => Sys2Proof.Machine.execBoost f s
  | .boostq f => Sys2Proof.Machine.execBoostq f s
  | .trap f => Sys2Proof.Machine.execTrap f s
  | .rtr f => Sys2Proof.Machine.execRtr f s
  | .rqrd f => Sys2Proof.Machine.execRqrd f s
  | .rqwr f => Sys2Proof.Machine.execRqwr f s
  | .sysrd f => Sys2Proof.Machine.execSysrd f s
  | .syswr f => Sys2Proof.Machine.execSyswr f s
  | .evGroupForm core => Sys2Proof.Machine.execEvGroupForm core s
  | .evLoadReturn op lanes pieces l1 fill errs => Sys2Proof.Machine.execEvLoadReturn op lanes pieces l1 fill errs s
  | .evStoreDrain warp => Sys2Proof.Machine.execEvStoreDrain warp s
  | .evWritePerformed id pkg request fill => Sys2Proof.Machine.execEvWritePerformed id pkg request fill s
  | .evServiceWarpRequest inst clus => Sys2Proof.Machine.execEvServiceWarpRequest inst clus s
  | .evQntApply op => Sys2Proof.Machine.execEvQntApply op s
  | .evDeferredFault op merged => Sys2Proof.Machine.execEvDeferredFault op merged s
  | .evExtentMissResolved warp entry victim => Sys2Proof.Machine.execEvExtentMissResolved warp entry victim s
  | .evMmaPass op faulty resid => Sys2Proof.Machine.execEvMmaPass op faulty resid s
  | .evCopyPass op => Sys2Proof.Machine.execEvCopyPass op s
  | .evCpyrAck op => Sys2Proof.Machine.execEvCpyrAck op s
  | .evLinkFailure port => Sys2Proof.Machine.execEvLinkFailure port s
  | .evForkAccept fork room rings => Sys2Proof.Machine.execEvForkAccept fork room rings s
  | .evFjoinResume team => Sys2Proof.Machine.execEvFjoinResume team s
  | .evTeamRetire team => Sys2Proof.Machine.execEvTeamRetire team s
  | .evMessageArrival n => Sys2Proof.Machine.execEvMessageArrival n s
  | .evParcelEnqueue n => Sys2Proof.Machine.execEvParcelEnqueue n s
  | .evParcelSpill n => Sys2Proof.Machine.execEvParcelSpill n s
  | .evParcelAdmit core lane => Sys2Proof.Machine.execEvParcelAdmit core lane s
  | .evRingDrain core => Sys2Proof.Machine.execEvRingDrain core s
  | .evSegrepComplete id => Sys2Proof.Machine.execEvSegrepComplete id s
  | .evSeghot grid seg => Sys2Proof.Machine.execEvSeghot grid seg s
  | .evWtimerExpire warp => Sys2Proof.Machine.execEvWtimerExpire warp s
  | .evSleepTimeout th => Sys2Proof.Machine.execEvSleepTimeout th s
  | .evSlewResume clus => Sys2Proof.Machine.execEvSlewResume clus s
  | .evHang ctx => Sys2Proof.Machine.execEvHang ctx s
  | .evTeamPlace part => Sys2Proof.Machine.execEvTeamPlace part s
  | .evTeamProtection team => Sys2Proof.Machine.execEvTeamProtection team s
  | .evSliceEnd part => Sys2Proof.Machine.execEvSliceEnd part s
  | .evSoftDrainDeadline ctx => Sys2Proof.Machine.execEvSoftDrainDeadline ctx s
  | .evHaltComplete ctx => Sys2Proof.Machine.execEvHaltComplete ctx s
  | .evHardHaltLimit ctx => Sys2Proof.Machine.execEvHardHaltLimit ctx s
  | .evContextRestore part => Sys2Proof.Machine.execEvContextRestore part s
  | .evFeModeWrite part via v rings => Sys2Proof.Machine.execEvFeModeWrite part via v rings s
  | .evCtxCreate part via v => Sys2Proof.Machine.execEvCtxCreate part via v s
  | .evCtxDestroy part via v => Sys2Proof.Machine.execEvCtxDestroy part via v s
  | .evGraphLoad part via v => Sys2Proof.Machine.execEvGraphLoad part via v s
  | .evGraphUnload part via v => Sys2Proof.Machine.execEvGraphUnload part via v s
  | .evGraphDone part room => Sys2Proof.Machine.execEvGraphDone part room s
  | .evTrigger part via v => Sys2Proof.Machine.execEvTrigger part via v s
  | .evRunStart ctx => Sys2Proof.Machine.execEvRunStart ctx s
  | .evNodeLaunch ctx rings => Sys2Proof.Machine.execEvNodeLaunch ctx rings s
  | .evRingHeadWrite ring via v => Sys2Proof.Machine.execEvRingHeadWrite ring via v s
  | .evRingInterruptTimer ring => Sys2Proof.Machine.execEvRingInterruptTimer ring s
  | .evMbInWrite part via n v => Sys2Proof.Machine.execEvMbInWrite part via n v s
  | .evMbOutRead part via n => Sys2Proof.Machine.execEvMbOutRead part via n s
  | .evMbStatClear part via v => Sys2Proof.Machine.execEvMbStatClear part via v s
  | .evRegisterWrite via vf off v rings => Sys2Proof.Machine.execEvRegisterWrite via vf off v rings s
  | .evUnsupportedRequest via vf off size => Sys2Proof.Machine.execEvUnsupportedRequest via vf off size s
  | .evWatchCtlWrite ctx via n v => Sys2Proof.Machine.execEvWatchCtlWrite ctx via n v s
  | .evErrStatusClear v => Sys2Proof.Machine.execEvErrStatusClear v s
  | .evGetVersion => Sys2Proof.Machine.execEvGetVersion s
  | .evGetCapabilities => Sys2Proof.Machine.execEvGetCapabilities s
  | .evNegotiateAlgorithms named => Sys2Proof.Machine.execEvNegotiateAlgorithms named s
  | .evGetDigests => Sys2Proof.Machine.execEvGetDigests s
  | .evGetCertificate slot off len => Sys2Proof.Machine.execEvGetCertificate slot off len s
  | .evChallenge slot nonce => Sys2Proof.Machine.execEvChallenge slot nonce s
  | .evGetMeasurements index => Sys2Proof.Machine.execEvGetMeasurements index s
  | .evKeyExchange slot => Sys2Proof.Machine.execEvKeyExchange slot s
  | .evFinish proof => Sys2Proof.Machine.execEvFinish proof s
  | .evHeartbeat => Sys2Proof.Machine.execEvHeartbeat s
  | .evKeyUpdate => Sys2Proof.Machine.execEvKeyUpdate s
  | .evEndSession => Sys2Proof.Machine.execEvEndSession s
  | .evIdeKm fn secure => Sys2Proof.Machine.execEvIdeKm fn secure s
  | .evLockInterface part => Sys2Proof.Machine.execEvLockInterface part s
  | .evStartInterface part => Sys2Proof.Machine.execEvStartInterface part s
  | .evStopInterface part => Sys2Proof.Machine.execEvStopInterface part s
  | .evIdeIntegrityFailure fn => Sys2Proof.Machine.execEvIdeIntegrityFailure fn s
  | .evVfEnableClear => Sys2Proof.Machine.execEvVfEnableClear s
  | .evPortCtlWrite port v => Sys2Proof.Machine.execEvPortCtlWrite port v s
  | .evPortLinkChange port link => Sys2Proof.Machine.execEvPortLinkChange port link s
  | .evRoceSend port qp src payload => Sys2Proof.Machine.execEvRoceSend port qp src payload s
  | .evRdmaWrite port qp key va data => Sys2Proof.Machine.execEvRdmaWrite port qp key va data s
  | .evRdmaRead port qp key va len => Sys2Proof.Machine.execEvRdmaRead port qp key va len s
  | .evPeerWrite port ctx va data => Sys2Proof.Machine.execEvPeerWrite port ctx va data s
  | .evStatus => Sys2Proof.Machine.execEvStatus s
  | .evLog off => Sys2Proof.Machine.execEvLog off s
  | .evFwBegin len => Sys2Proof.Machine.execEvFwBegin len s
  | .evFwChunk len => Sys2Proof.Machine.execEvFwChunk len s
  | .evFwCommit => Sys2Proof.Machine.execEvFwCommit s
  | .evFwCommitDone => Sys2Proof.Machine.execEvFwCommitDone s
  | .evReset found => Sys2Proof.Machine.execEvReset found s
  | .evQpSet => Sys2Proof.Machine.execEvQpSet s
  | .evQpClear qp => Sys2Proof.Machine.execEvQpClear qp s
  | .evKeySet => Sys2Proof.Machine.execEvKeySet s
  | .evKeyClear key => Sys2Proof.Machine.execEvKeyClear key s
  | .evPowerOn found => Sys2Proof.Machine.execEvPowerOn found s
  | .evPowerLoss => Sys2Proof.Machine.execEvPowerLoss s
  | .evThermalStep phys temp => Sys2Proof.Machine.execEvThermalStep phys temp s
  | .evThermalShutdown phys temp => Sys2Proof.Machine.execEvThermalShutdown phys temp s
  | .evThermalRelease phys temp => Sys2Proof.Machine.execEvThermalRelease phys temp s
  | .evPowerIntervalBoundary ms => Sys2Proof.Machine.execEvPowerIntervalBoundary ms s
  | .evVoltageSettled clus => Sys2Proof.Machine.execEvVoltageSettled clus s
  | .evPhaseFail phys phase => Sys2Proof.Machine.execEvPhaseFail phys phase s
  | .evBumpSuspect phys group drop => Sys2Proof.Machine.execEvBumpSuspect phys group drop s
  | .evCanary phys => Sys2Proof.Machine.execEvCanary phys s
  | .evClusterPowerUp phys fits => Sys2Proof.Machine.execEvClusterPowerUp phys fits s
  | .evInrushRecheck phys fits => Sys2Proof.Machine.execEvInrushRecheck phys fits s
  | .evInrushSlow phys => Sys2Proof.Machine.execEvInrushSlow phys s
  | .evRampEnd phys => Sys2Proof.Machine.execEvRampEnd phys s
  | .evAnneal die sector cal past => Sys2Proof.Machine.execEvAnneal die sector cal past s
  | .evBilletCall die => Sys2Proof.Machine.execEvBilletCall die s
  | .evBilletTestDone die pass cal => Sys2Proof.Machine.execEvBilletTestDone die pass cal s
  | .evWearAccrual ms => Sys2Proof.Machine.execEvWearAccrual ms s
  | .evJournalWrite => Sys2Proof.Machine.execEvJournalWrite s
  | .evCheckpoint => Sys2Proof.Machine.execEvCheckpoint s
  | .evBudgetRefill part => Sys2Proof.Machine.execEvBudgetRefill part s
  | .evHmCtlGen v => Sys2Proof.Machine.execEvHmCtlGen v s
  | .evHallmarkDone => Sys2Proof.Machine.execEvHallmarkDone s
  | .evScrubRead unit errs last => Sys2Proof.Machine.execEvScrubRead unit errs last s
  | .evScrubWriteback unit => Sys2Proof.Machine.execEvScrubWriteback unit s
  | .evScrubDeadline unit => Sys2Proof.Machine.execEvScrubDeadline unit s
  | .evPartitionDirectWrite part reg v => Sys2Proof.Machine.execEvPartitionDirectWrite part reg v s
  | .evResizeRequest part v => Sys2Proof.Machine.execEvResizeRequest part v s
  | .evResizeCancel part v => Sys2Proof.Machine.execEvResizeCancel part v s
  | .evResizeQuiescing => Sys2Proof.Machine.execEvResizeQuiescing s
  | .evResizeMigrating => Sys2Proof.Machine.execEvResizeMigrating s
  | .evResizeDeadline => Sys2Proof.Machine.execEvResizeDeadline s
  | .evResizeRemapping => Sys2Proof.Machine.execEvResizeRemapping s
  | .evResizeRehashing => Sys2Proof.Machine.execEvResizeRehashing s
  | .evResizeShootdown => Sys2Proof.Machine.execEvResizeShootdown s
  | .evResizeDone => Sys2Proof.Machine.execEvResizeDone s
  | .evInvQueue v => Sys2Proof.Machine.execEvInvQueue v s
  | .evInvCommandStart => Sys2Proof.Machine.execEvInvCommandStart s
  | .evInvDone => Sys2Proof.Machine.execEvInvDone s
  | .evHintMismatch grid range lookups misses remote die => Sys2Proof.Machine.execEvHintMismatch grid range lookups misses remote die s
  | .evQuotaRebalance colour gains losses => Sys2Proof.Machine.execEvQuotaRebalance colour gains losses s
  | .evModuleReset found => Sys2Proof.Machine.execEvModuleReset found s
  | .evScrubTakeover unit behind => Sys2Proof.Machine.execEvScrubTakeover unit behind s

end Sys2Proof.Machine
end

