-- ==== Sys2Proof/Machine/Turn.lean ====
section
/-!
DEFINITION. A turn of the schedule: how time passes, which groups may issue, the instruction a group fetches, and the turn taken where the
schedule names none (R4, R30, R75, R254, R264, R303, R319, R373; assumption 2).
-/
namespace Sys2Proof.Machine

/-- A group waits on memory (R376): on a wait counter, on a load's destination, or on a full store queue. -/
def Group.memWaits (g : Group) : Bool :=
  match g.stall with
  | .counterWait | .counterFull | .register | .storeQueue => true
  | _ => false

/-- Memory-stall cycles that pass (R376): of each core that issues nothing in a cycle while a group of it waits on memory. -/
def State.countStalls (s : State) (dt : Nat) : State :=
  let cores := ((s.groups.filter (fun e => e.2.memWaits)).map (fun e => e.2.core)).eraseDups
  cores.foldl (fun s c =>
    let k := s.cluster (c / 4)
    let now_ := k.cycles s.now
    let n := k.cycles (s.now + dt) - now_
    s.updCore c (fun q => { q with stl := q.stl + (if q.issAt = some now_ then n - 1 else n) })) s

/-- Time passes, with what it alone brings about (R289, R361, R373, R376, R397), the host stores bytes in its own memory meanwhile,
and errors that checks have found are taken (R383). -/
def State.pass (s : State) (t : Turn) : State :=
  let s1 := (s.hangTime t.dt).countStalls t.dt
  ((((({ s1 with now := s.now + t.dt } : State).settleHot).settleHints.inrushPass t.dt).resizeDeadline).hostStore t.host).takeErrors t.errs

/-- Every team of a co-resident grid stands on a core, but those that are over (R259). -/
def State.resident (s : State) (t : Team) (g : Grid) : Bool :=
  !g.cores || s.teams.all (fun e => e.2.grid != t.grid || e.2.at_ == .placed || e.2.isOver)

/-- A group can take an issue slot (R75, R76, R259, R263, R319, R365, R373): it is not parked, its team stands on a core of a cluster that
is up, its context runs, and its grid is resident where it is co-resident. -/
def State.canIssue (s : State) (g : Group) : Bool :=
  !s.off && !g.parked && s.clusterUp (g.core / 4) &&
    (match SMap.look s.teams g.team, s.gridOfTeam g.team with
     | some t, some gr => t.at_ == .placed && s.running gr.ctx && s.resident t gr && !g.threads.any (fun th => s.redoing (s.wkOf th))
     | _, _ => false)

/-- A group's age: that of its oldest thread (R253, R254). -/
def State.groupAge (s : State) (g : Group) : Nat :=
  (g.threads.filterMap (fun th => (SMap.look s.threads th).map (fun t => s.ageOf (th, t)))).foldl max 0

/-- A group has had its issue slot in its cluster's current cycle. -/
def State.hadTurn (s : State) (g : Group) : Bool :=
  let k := s.cluster (g.core / 4)
  match g.turn with
  | some t => k.cycles t == k.cycles s.now
  | none => false

/-- A group has one of its core's 16 places (R254): of the groups that wait for nothing R262 names, the 16 that were formed first hold them
(assumption 67). -/
def State.seated (s : State) (gid : Nat) (g : Group) : Bool :=
  decide ((s.groups.filter (fun e => decide (e.1 < gid) && e.2.core == g.core && s.canIssue e.2 && !s.idleGroup e.2)).length < 16)

/-- An older group of the core that waits for nothing and has not had its slot in this cycle comes first (R254 step 4, R262; assumption
133). One core runs one context, so age alone decides. -/
def State.outranked (s : State) (g : Group) : Bool :=
  s.groups.any (fun e => e.2.core == g.core && e.2.stall == .none && s.canIssue e.2 && s.seated e.1 e.2 && !s.hadTurn e.2
    && decide (s.groupAge g < s.groupAge e.2))

/-- A group may issue: it can, it has a place, and no older one of its core comes first. -/
def State.mayIssue (s : State) (gid : Nat) : Bool :=
  match SMap.look s.groups gid with
  | none => false
  | some g => s.canIssue g && s.seated gid g && !s.outranked g

/-- The instruction a group fetches: the word at its place in the launch's code, decoded (R30, R33, R75). -/
def State.fetch (s : State) (g : Group) : Except DecodeFault Instr :=
  match s.gridOfTeam g.team with
  | none => .error .clause
  | some gr =>
    match s.codeWord gr.code g.pc with
    | none => .error .clause
    | some w => decodeWord w

/-- The traps of a group whose word cannot be fetched; a clause that began has none (R50). -/
def fetchTraps (g : Group) (e : DecodeFault) : List TrapReq :=
  g.threads.map (fun th => { th := th, code := e.code, info := g.pc, rpc := g.head, entry := none })

/-- An event that can happen: without power, only POWER_ON (R391). -/
def State.mayHappen (s : State) (e : Instr) : Bool :=
  !s.off || (match e with | .evPowerOn _ => true | _ => false)

/-- Instructions of the opcode map issue; the others are events. -/
def isEvent (i : Instr) : Bool := i.op.isNone

/-! The turn where the schedule names none (assumption 2). -/

/-- What could happen to an outstanding operation. -/
def State.opEvent (s : State) (id : Nat) (o : MemOp) : List Act :=
  let all : W32 := 0xFFFFFFFF
  if o.lanes.any (fun l => l.flt != 0) then [.event (.evDeferredFault id false)]
  else match o.kind with
    | .load => [.event (.evLoadReturn id all 3 false false [])]
    | .store => if (s.headStore o.wk).any (fun h => h.1 == id) then [.event (.evStoreDrain o.wk)] else []
    | .pref | .linv => [.event (.evWritePerformed id true true false)]
    | .fence => []
    | _ =>
      if o.lanes.any (fun l => l.got1.isSome || l.space != .glob) then [.event (.evLoadReturn id all 3 false false [])]
      else (o.lanes.head?).toList.map (fun l => .event (.evServiceWarpRequest o.inst (s.laneOwner l)))

/-- What could happen to an engine operation. -/
def engEvent (id : Nat) (o : EngOp) : Act :=
  if o.kind = 2 then .event (.evMmaPass id [] {}) else if o.walked then .event (.evCpyrAck id) else .event (.evCopyPass id)

/-- What could happen in a state, as far as the model's own schedule looks. -/
def State.choices (s : State) : List Act :=
  (s.groups.filter (fun e => s.mayIssue e.1)).map (fun e => .issue e.1)
    ++ ((s.threads.filter (fun e => e.2.inTable)).map (fun e => s.coreOfTh e.1)).eraseDups.map (fun c => .event (.evGroupForm c))
    ++ s.ops.flatMap (fun e => s.opEvent e.1 e.2)
    ++ s.pend.map (fun e => if s.pendCell e.2 then .event (.evDeferredFault e.1 true) else .event (.evWritePerformed e.1 true false false))
    ++ s.eng.map (fun e => engEvent e.1 e.2)
    ++ ((s.threads.filter (fun e => e.2.stat == .extentMiss)).map (fun e => e.2.wk)).eraseDups.map (fun w => .event (.evExtentMissResolved w 0 0))
    ++ ((s.teams.filter (fun e => s.teamOver e.1)).map (fun e => .event (.evTeamRetire e.1)))

/-- The model's own turn: one master cycle passes, then one of the choices in turn; none where nothing can happen. -/
def State.ownTurn (s : State) : Option Act :=
  match s.choices with
  | [] => none
  | cs => cs[s.now / 75 % cs.length]?

end Sys2Proof.Machine
end

