-- ==== Sys2Proof/Machine/Step.lean ====
section
/-!
DEFINITION. One step: a turn of the schedule, and what follows from it by itself.
-/
namespace Sys2Proof.Machine

/-- A group's turn: it issues the instruction it fetches. -/
def State.issueTurn (s : State) (gid : Nat) : Host.Outcome State Fault Refusal :=
  if !s.mayIssue gid then .next s
  else match SMap.look s.groups gid with
    | none => .next s
    | some g =>
      match s.fetch g with
      | .ok i => exec i { s.updGroup gid (fun g => { g with turn := some s.now }) with cur := some gid }
      | .error e => .next (s.deliver (fetchTraps g e))

/-- What a turn does: a group issues, or an event happens; a turn that cannot be taken changes nothing. -/
def State.act (s : State) : Act → Host.Outcome State Fault Refusal
  | .issue gid => s.issueTurn gid
  | .event e => if isEvent e && s.mayHappen e then exec e s else .next s

/-- The turn's effect, then everything that follows by itself. -/
def settled (o : Host.Outcome State Fault Refusal) : Host.Outcome State Fault Refusal :=
  match o with
  | .next s => .next s.settleAll
  | .fault r => .fault r
  | .refused r => .refused r

/-- One step: the next turn of the schedule, or the model's own where the schedule has ended (assumption 2). -/
def step (s : State) : Host.Outcome State Fault Refusal :=
  match s.agenda with
  | t :: rest => settled ((({ s with agenda := rest }).pass t).act t.act)
  | [] =>
    match s.ownTurn with
    | some a => settled ((s.pass { dt := 75, act := a }).act a)
    | none => settled (.next (s.pass { dt := 75, act := .issue 0 }))

/-- The word of a clause header for one instruction: MARK, COUNT 0, class ctl, no waits (R31). -/
def oneWordHeader : W64 := 0xC70CFFFFC0000000

/-- A grid of one team of one warp at address 0, with every register. -/
def Grid.single (code : Nat) : Grid :=
  { ctx := 0, num := 0, depth := 1, code := code, entryPc := 0, warps := 1, nv := 255, ns := 63, scratch := 229376, cg := 1, nteam := 1,
    travel := false, det := false, cores := false, param := 0, dataSec := 0, constSec := 0, stack := 0, stackZ := 0, parent := none,
    token := none, node := none, segs := [], qdepth := 64, lslots := 63, ranges := [], bmap := none, quiet := false, image := 0,
    autorep := false, teamsLeft := 1, status := 0, done := false }

/-- Its team, on core 0. -/
def Team.single (s : State) (gk : Nat) : Team :=
  { grid := gk, idx := 0, core := 0, at_ := .placed, cyc := 0, cycAt := s.clusCyc 0, run := true, first := some 0, flag := false, ovf := [],
    ovfBy := none, posted := [], children := 0, fjoined := [], passed := none, prot := false, status := 0 }

/-- Its group: thread 0, at the instruction after the header. -/
def Group.single (tk : Nat) : Group :=
  { core := 0, team := tk, threads := [thKey tk 0], head := 0, hword := oneWordHeader, idx := 0, waited := true, stall := .none,
    latch := [], sleepers := [], yielders := [], moved := [], parked := false, issued := false, turn := none }

/-- `s` with the word `w` as the next instruction a group issues: a new one-thread team of context 0 stands on core 0 at that word, and
the schedule's next turn is its group's. -/
def State.withFetchWord (s : State) (_nbits w : Nat) : State :=
  let gk := SMap.fresh s.grids
  let tk := SMap.fresh s.teams
  let ck := SMap.fresh s.codes
  let th := thKey tk 0
  let wk := warpKey tk 0
  { s with
    off := false
    agenda := [{ dt := 0, act := .issue s.nid }]
    nid := s.nid + 1
    codes := SMap.ins s.codes ck { base := 0, words := [oneWordHeader, BitVec.ofNat 64 w] }
    grids := SMap.ins s.grids gk (Grid.single ck)
    teams := SMap.ins s.teams tk (Team.single s gk)
    warps := SMap.ins s.warps wk (Warp.fresh tk 0)
    threads := SMap.ins s.threads th (Thread.new wk 0 0 (.grouped s.nid) 0)
    groups := SMap.ins (s.groups.map (fun e => (e.1, { e.2 with turn := some s.now }))) s.nid (Group.single tk)
    ctxs := SMap.ins s.ctxs 0 { (SMap.look s.ctxs 0).getD {} with live := true, halting := none }
    fes := SMap.ins s.fes 0 { s.fe 0 with holder := some 0 }
    cores := SMap.ins s.cores 0 { s.coreOf 0 with ctx := some 0 }
    clusters := SMap.ins s.clusters 0 { s.cluster 0 with dark := false }
    calls := s.calls.filter (fun q => q.clus ≠ 0)
    phys := SMap.ins s.phys (s.physOf 0) { s.physAt (s.physOf 0) with on := true, state := 0, inrush := 0 } }

end Sys2Proof.Machine
end

