-- ==== Sys2Proof/Safety.lean ====
section
/-!
DEFINITION. The terms claims are stated in: when nothing stands between an instruction and its effect, and what it is for an instruction
to write one scalar register, one lane register or one predicate and nothing else.
-/
namespace Sys2Proof.Machine

/-- A thread exists and has not taken the effect of the instruction its group stands at: no rendezvous has released it there (R96). -/
def State.unserved (s : State) (th : Nat) : Bool := ((SMap.look s.threads th).map (fun t => !t.rdvDone)).getD false

/-- No register among some operands is listed in a map of lane registers, for any of some threads. -/
def noLane {β : Type} (m : SMap β) (ths : List Nat) (os : List Opnd) : Bool := !anyLane m ths (laneRegs os)

/-- No register among some operands is listed in a map of scalar registers, for any of some warps. -/
def noScalar {β : Type} (m : SMap β) (wks : List Nat) (os : List Opnd) : Bool := !anyScalar m wks (scalarRegs os)

/-- Nothing stands between an instruction and its effect: group `gid`, which is `g`, issues, for the first time at this word; no thread of it
has taken the effect yet; the header's waits are met (R32); the replay queue has room (R226); no LINV of a warp holds a load back (R156); no
register the instruction names is pending or engine-owned (R79 to R81), armed (R172) or holds an uncorrectable error (R368); and no latch
it uses differs from the register file (R82). -/
def State.clear (s : State) (i : Instr) (gd : Guard) (gid : Nat) (g : Group) : Bool :=
  let act := s.active g gd
  let wks := s.warpsOf act
  let whole := if wholeWarp i then g.threads else act
  let regs := (lockShape i).reads ++ (lockShape i).writes
  decide (s.cur = some gid) && decide (SMap.look s.groups gid = some g) && !g.issued && g.threads.all s.unserved
    && (g.waited || s.waitsMet g) && (!isLimited i || !s.overLimit g) && (!isLoad i || !wks.any s.linvPending)
    && noLane s.vbusy whole regs && noScalar s.sbusy (if isRendezvous i then s.warpsOf g.threads else wks) regs
    && noLane s.vown whole regs && noLane s.vread whole (lockShape i).writes
    && !anyScalar s.armed wks (armedRegs i) && noLane s.vbad whole (badShape i).reads && noScalar s.sbad (s.warpsOf whole) (badShape i).reads
    && s.latched i g

/-- Only scalar registers may differ between two states. -/
def onlyScalars (s t : State) : Prop := t = { s with sr := t.sr, armed := t.armed, sbad := t.sbad }

/-- What a group's moving on and the delivery of traps may change: where threads, groups, warps, teams and rendezvous stand, the cores'
tables, the contexts' halts and faults, the numbers the model hands out, and s61 and s62, which a trap writes (R75, R76, R225). Lane
registers, predicates, memory, scratchpads, operations under way and every device register stay. -/
def movesOn (s t : State) : Prop :=
  t = { s with groups := t.groups, threads := t.threads, warps := t.warps, teams := t.teams, cores := t.cores, ctxs := t.ctxs,
               rdvs := t.rdvs, nid := t.nid, fc := t.fc, sr := t.sr, armed := t.armed, sbad := t.sbad } ∧
  ∀ wk r, r < 64 → r ≠ 61 → r ≠ 62 → t.sget wk r = s.sget wk r

/-- Only lane registers may differ between two states. -/
def onlyLanes (s t : State) : Prop := t = { s with v := t.v, vbad := t.vbad }

/-- Only predicates may differ between two states. -/
def onlyPreds (s t : State) : Prop := t = { s with pr := t.pr }

/-- Past its gate, an instruction writes `val` into scalar register `d` of every warp that has an active thread, and changes nothing else
before its group moves on (R38, R83). -/
def SetsScalar (i : Instr) (gd : Guard) (d : RegField) (val : State → Nat → W64) : Prop :=
  ∀ (s : State) (gid : Nat) (g : Group), i.wf = true → s.clear i gd gid g = true →
    ∃ t : State, exec i s = .next (t.finish gid (s.latches i g) []) ∧
      (∀ wk ∈ s.warpsOf (s.active g gd), t.sget wk d.toNat = if d = 63 then 0 else val s wk) ∧
      (∀ wk r, r < 64 → ¬(wk ∈ s.warpsOf (s.active g gd) ∧ r = d.toNat) → t.sget wk r = s.sget wk r) ∧
      onlyScalars s t

/-- Past its gate, an instruction writes `val` into lane register `d` (or the pair from `d`) of every active thread, and changes nothing
else before its group moves on (R38). -/
def SetsLane (i : Instr) (gd : Guard) (wide : Bool) (d : RegField) (val : State → Nat → Nat) : Prop :=
  ∀ (s : State) (gid : Nat) (g : Group), i.wf = true → s.clear i gd gid g = true →
    ∃ t : State, exec i s = .next (t.finish gid (s.latches i g) []) ∧
      (∀ th ∈ s.active g gd,
        if wide then t.vgetp th d.toNat = BitVec.ofNat 64 (val s th)
        else t.vget th d.toNat = if d = 255 then 0 else BitVec.ofNat 32 (val s th)) ∧
      (∀ th r, r < 256 → ¬(th ∈ s.active g gd ∧ (r = d.toNat ∨ (wide = true ∧ r = d.toNat + 1))) → t.vget th r = s.vget th r) ∧
      onlyLanes s t

/-- Past its gate, an instruction writes `val` into predicate `p` of every active thread, and changes nothing else before its group moves
on (R38). -/
def SetsPred (i : Instr) (gd : Guard) (p : Nat) (val : State → Nat → Bool) : Prop :=
  ∀ (s : State) (gid : Nat) (g : Group), i.wf = true → s.clear i gd gid g = true →
    ∃ t : State, exec i s = .next (t.finish gid (s.latches i g) []) ∧
      (∀ th ∈ s.active g gd, t.pget th p = val s th) ∧
      (∀ th q, q < 8 → ¬(th ∈ s.active g gd ∧ q = p) → t.pget th q = s.pget th q) ∧
      onlyPreds s t

/-- Past its gate, and where `pre` holds, an instruction makes the state `post` describes, and its group moves on (R38, R75). -/
def Acts (i : Instr) (gd : Guard) (pre : State → Nat → Group → Prop) (post : State → Nat → Group → State → Prop) : Prop :=
  ∀ (s : State) (gid : Nat) (g : Group), i.wf = true → s.clear i gd gid g = true → pre s gid g →
    ∃ t : State, exec i s = .next (t.finish gid (s.latches i g) []) ∧ post s gid g t

/-- Past its gate, and where `pre` holds, an instruction traps every active thread with a code, before any effect. -/
def TrapsAll (i : Instr) (gd : Guard) (code : Nat) (pre : State → Nat → Group → Prop) : Prop :=
  ∀ (s : State) (gid : Nat) (g : Group), i.wf = true → s.clear i gd gid g = true → pre s gid g →
    exec i s = .next (s.finish gid (s.latches i g) ((s.active g gd).map (fun th => s.trapOf i g th code)))

/-- No premise of its own. -/
def always : State → Nat → Group → Prop := fun _ _ _ => True

/-- Scalar registers read alike in two states. -/
def sameScalars (s t : State) : Prop := ∀ wk r, r < 64 → t.sget wk r = s.sget wk r
/-- Lane registers read alike. -/
def sameLanes (s t : State) : Prop := ∀ th r, r < 256 → t.vget th r = s.vget th r

/-- A whole rendezvous stands in one group (R96): its threads are of warp `wk`, in lanes of `mask`, none has joined an instance, every
other lane of `mask` holds only threads that have exited, and no instance of the warp is incomplete. -/
def State.gathered (s : State) (g : Group) (wk : Nat) (mask : W32) : Prop :=
  g.threads ≠ [] ∧ g.threads.Nodup ∧
  (∀ th ∈ g.threads, ∃ t, SMap.look s.threads th = some t ∧ t.wk = wk ∧ t.lane = laneOfTh th ∧ t.rdv = none ∧ laneBit mask t.lane = true) ∧
  (∀ th ∈ g.threads, ∀ th' ∈ g.threads, laneOfTh th = laneOfTh th' → th = th') ∧
  (∀ e ∈ s.threads, e.2.wk = wk → laneBit mask e.2.lane = true → e.2.stat = .exited ∨ ∃ th ∈ g.threads, laneOfTh th = e.2.lane) ∧
  (∀ e ∈ s.rdvs, e.2.wk ≠ wk)

/-- Past its gate, a rendezvous form whose members all stand in one group completes at that issue: it makes the state `post` describes, no
thread waits, and its group moves on (R96). Besides registers only the numbering of instances may differ. -/
def Meets (i : Instr) (gd : Guard) (mask : State → Nat → W32) (post : State → Group → Nat → State → Prop) : Prop :=
  ∀ (s : State) (gid : Nat) (g : Group) (wk : Nat), i.wf = true → s.clear i gd gid g = true → s.gathered g wk (mask s wk) →
    ∃ t : State, exec i s = .next (t.finish gid (s.latches i g) []) ∧ post s g wk t ∧
      (∀ th, SMap.look t.threads th = SMap.look s.threads th) ∧
      t = { s with v := t.v, vbad := t.vbad, sr := t.sr, armed := t.armed, sbad := t.sbad, threads := t.threads, rdvs := t.rdvs, nid := t.nid }

/-- The active thread of a group in a lane. -/
def State.inLane (s : State) (g : Group) (gd : Guard) (lane : Nat) : Option Nat := (s.active g gd).find? (fun th => laneOfTh th == lane)

/-- What issuing memory operations may change: the list of operations, the wait counters, the registers that are pending (R77 to R79) and
when an extent was last used (R275). No register and no byte of any memory. -/
def onlyIssues (s t : State) : Prop :=
  t = { s with ops := t.ops, nid := t.nid, vbusy := t.vbusy, sbusy := t.sbusy, warps := t.warps, extUse := t.extUse }

/-- The state once an instruction that waits has issued: its group waits at it (R75). -/
def State.waitsAt (t : State) (gid : Nat) (w : Stall) : State :=
  ((t.noteIssue gid).updGroup gid (fun g => { g with waited := true, issued := false })).stallAt gid w

/-- No counter or queue holds an access of a group back (R77, R150): counter `w` has room for every warp present, and, for a store, the
queue of every warp with an active thread. -/
def State.hasRoom (s : State) (g : Group) (gd : Guard) (w : Wctr) (queued : Bool) : Prop :=
  s.counterFull (s.warpsOf g.threads) (wOf w) = false ∧ (queued = true → ∀ wk ∈ s.warpsOf (s.active g gd), s.queueLen wk < 32)

/-- The active threads of a warp that perform an access: all of them, or with `once` the first (R75). -/
def State.performers (s : State) (g : Group) (gd : Guard) (once : Bool) (wk : Nat) : List Nat :=
  let mine := (s.active g gd).filter (fun th => s.wkOf th == wk)
  if once then mine.take 1 else mine

/-- Past its gate, and where every access it performs passes its checks as `acc`, a memory form issues one operation for each warp with an
active thread: of `kind` and `width`, with the warp's accesses in order, and `more` of it. Registers and memory stay. -/
def IssuesAccess (i : Instr) (gd : Guard) (w : Wctr) (queued once : Bool) (ask : State → Nat → Ask) (kind : MKind) (width : Nat)
    (pre : State → Group → Prop) (more : MemOp → Prop) : Prop :=
  ∀ (s : State) (gid : Nat) (g : Group) (acc : Nat → LaneAcc), i.wf = true → s.clear i gd gid g = true → s.hasRoom g gd w queued → pre s g →
    (∀ wk ∈ s.warpsOf (s.active g gd), ∀ th ∈ s.performers g gd once wk, s.check th (ask s th) = .ok (acc th)) →
    ∃ t : State, exec i s = .next (t.finish gid (s.latches i g) []) ∧ onlyIssues s t ∧
      ∀ wk ∈ s.warpsOf (s.active g gd), ∃ id o, SMap.look t.ops id = some o ∧ s.nid ≤ id ∧ id < t.nid ∧ o.wk = wk ∧ o.kind = kind ∧
        o.width = width ∧ o.pc = g.pc ∧ o.lanes = (s.performers g gd once wk).map acc ∧ more o

/-- What a load of an M form asks for a thread: SZ bytes at its formed address, at any alignment unless it is ordered (R143, R145). -/
def loadAsk (f : Me) (wh : Where) (s : State) (th : Nat) : Ask where
  wh := wh
  addr := Mem.addr s (s.wkOf th) th f
  width := szBytes f.sz
  align := if f.ord = .rlx then 1 else szBytes f.sz
  isRead := true
  isWrite := false

/-- What a store of an M form asks: likewise, with the data of its register, or the low bytes of its scalar (R140). -/
def storeAsk (f : Me) (wh : Where) (scalar : Bool) (s : State) (th : Nat) : Ask where
  wh := wh
  addr := Mem.addr s (s.wkOf th) th f
  width := szBytes f.sz
  align := if f.ord = .rlx then 1 else szBytes f.sz
  isRead := false
  isWrite := true
  data := if scalar then BitVec.ofNat 128 ((s.sget (s.wkOf th) f.b.toNat).toNat % 2 ^ (8 * szBytes f.sz)) else s.laneData th f.sz f.b

/-- What an atomic asks: aligned to its size, reading and writing (R142, R145). -/
def atomAsk (f : Ma) (wh : Where) (s : State) (th : Nat) : Ask where
  wh := wh
  addr := Ma.addrOf s (s.wkOf th) th f
  width := szBytes f.sz
  align := szBytes f.sz
  isRead := true
  isWrite := true
  data := s.laneData th f.sz f.b
  data2 := (s.laneData th f.sz f.c).setWidth 64

/-- What PREF looks at (R155). -/
def prefAsk (f : Me) (s : State) (th : Nat) : Ask where
  wh := .global
  addr := Mem.addr s (s.wkOf th) th f
  width := 1
  align := 1
  isRead := false
  isWrite := false

/-- Every thread stands as it did. -/
def sameThreads (s t : State) : Prop := ∀ th, SMap.look t.threads th = SMap.look s.threads th

/-- The whole warp is gathered for a form on counter `w`, which has room for it (R77, R96). -/
def State.gatheredFor (s : State) (g : Group) (wk w : Nat) : Prop :=
  s.gathered g wk 0xFFFFFFFF ∧ ∃ u gr, SMap.look s.warps wk = some u ∧ s.gridOfTeam u.team = some gr ∧ (w ≤ 5 → u.count w < 15)

/-- The active threads of a group in ascending lane order. -/
def State.inOrder (s : State) (g : Group) (gd : Guard) : List Nat := (List.range 32).filterMap (s.inLane g gd)

/-- The lowest lane of a group is thread `th`'s. -/
def lowestOf (g : Group) (th : Nat) : Prop := th ∈ g.threads ∧ ∀ x ∈ g.threads, laneOfTh th ≤ laneOfTh x

/-- The integer a scalar source holds under a type (R51, R90). -/
def intIn (t : Ty) (x : W64) : Int :=
  match t.is64, t.isSigned with
  | true, true => x.toInt
  | true, false => (x.toNat : Int)
  | false, true => (lo32 x).toInt
  | false, false => ((lo32 x).toNat : Int)

/-- The nearest value of a 32-bit or 64-bit type's range (R52). -/
def clampIn (t : Ty) (x : Int) : Int :=
  match t.is64, t.isSigned with
  | true, true => max (-9223372036854775808) (min x 9223372036854775807)
  | true, false => max 0 (min x 18446744073709551615)
  | false, true => max (-2147483648) (min x 2147483647)
  | false, false => max 0 (min x 4294967295)

/-- A result kept at a type's width and extended into a scalar register (R90). -/
def extendIn (t : Ty) (x : W64) : W64 :=
  if t.is64 then x else if t = .s32 then (lo32 x).signExtend 64 else (lo32 x).setWidth 64

/-- A sum, difference or product: the low bits of the exact result, or with .sat the nearest value of the range (R52, R91). -/
def resultIn (t : Ty) (sat : Bool) (x : Int) : W64 := extendIn t (BitVec.ofInt 64 (if sat then clampIn t x else x))

end Sys2Proof.Machine
end

