-- ==== Sys2Proof/Certificates/Slice0/Obligations.lean ====
section
/-!
DEFINITION. The statements for the provers.
-/
open Sys2Proof Sys2Proof.Machine

/-- R90, R91, R52: SADD, SSUB and SMUL write the exact result wrapped, or saturated with .sat; SMULH the high half of the product; SDIV the quotient
or the remainder; SMIN and SMAX the smaller and the larger source. R91, R52: SAND, SOR and SXOR combine bits; SSHL and SSHR shift by the whole
unsigned value of S[B], and a count of the width or more leaves 0, or sign bits for an arithmetic shift. -/
def Obligations.ScalarArithmetic : Prop :=
  (∀ f : Sr,
     SetsScalar (.sadd f) f.g f.d (fun s wk =>
       resultIn f.ty f.sat (intIn f.ty (s.sget wk f.a.toNat) + intIn f.ty (s.sget wk f.b.toNat))) ∧
     SetsScalar (.ssub f) f.g f.d (fun s wk =>
       resultIn f.ty f.sat (intIn f.ty (s.sget wk f.a.toNat) - intIn f.ty (s.sget wk f.b.toNat))) ∧
     SetsScalar (.smul f) f.g f.d (fun s wk =>
       resultIn f.ty f.sat (intIn f.ty (s.sget wk f.a.toNat) * intIn f.ty (s.sget wk f.b.toNat))) ∧
     SetsScalar (.smulh f) f.g f.d (fun s wk =>
       resultIn f.ty false (intIn f.ty (s.sget wk f.a.toNat) * intIn f.ty (s.sget wk f.b.toNat) / 2 ^ tyW f.ty)) ∧
     SetsScalar (.sdiv f) f.g f.d (fun s wk =>
       let a := intIn f.ty (s.sget wk f.a.toNat)
       let b := intIn f.ty (s.sget wk f.b.toNat)
       resultIn f.ty false (if b = 0 then (if f.bit8 then a else -1) else if f.bit8 then a.tmod b else a.tdiv b)) ∧
     SetsScalar (.smin f) f.g f.d (fun s wk =>
       let a := intIn f.ty (s.sget wk f.a.toNat)
       let b := intIn f.ty (s.sget wk f.b.toNat)
       resultIn f.ty false (min a b)) ∧
     SetsScalar (.smax f) f.g f.d (fun s wk =>
       let a := intIn f.ty (s.sget wk f.a.toNat)
       let b := intIn f.ty (s.sget wk f.b.toNat)
       resultIn f.ty false (max a b))) ∧
  (∀ f : Sr,
     SetsScalar (.sand f) f.g f.d (fun s wk => extendIn f.ty (s.sget wk f.a.toNat &&& s.sget wk f.b.toNat)) ∧
     SetsScalar (.sor f) f.g f.d (fun s wk => extendIn f.ty (s.sget wk f.a.toNat ||| s.sget wk f.b.toNat)) ∧
     SetsScalar (.sxor f) f.g f.d (fun s wk => extendIn f.ty (s.sget wk f.a.toNat ^^^ s.sget wk f.b.toNat)) ∧
     SetsScalar (.sshl f) f.g f.d (fun s wk =>
       let n := (s.sget wk f.b.toNat).toNat
       if tyW f.ty ≤ n then 0 else extendIn f.ty (s.sget wk f.a.toNat <<< n)) ∧
     SetsScalar (.sshr f) f.g f.d (fun s wk =>
       let a := intIn f.ty (s.sget wk f.a.toNat)
       let n := (s.sget wk f.b.toNat).toNat
       resultIn f.ty false (if tyW f.ty ≤ n then (if a < 0 then -1 else 0) else a / 2 ^ n)))

/-- R92: SBFX and SBFI take the position and the length of a field from S[B], clamped to the type's width. -/
def Obligations.ScalarFields : Prop :=
  ∀ f : Sr,
    SetsScalar (.sbfx f) f.g f.d (fun s wk =>
      let w := tyW f.ty
      let b := (s.sget wk f.b.toNat).toNat
      let pos := min (b % 256) w
      let len := min (b / 256 % 256) (w - pos)
      let x := (s.sget wk f.a.toNat).toNat % 2 ^ w / 2 ^ pos % 2 ^ len
      if len = 0 then 0
      else resultIn f.ty false (if f.ty.isSigned ∧ 2 ^ (len - 1) ≤ x then (x : Int) - 2 ^ len else x)) ∧
    SetsScalar (.sbfi f) f.g f.d (fun s wk =>
      let w := tyW f.ty
      let b := (s.sget wk f.b.toNat).toNat
      let pos := min (b % 256) w
      let len := min (b / 256 % 256) (w - pos)
      let mask : W64 := ((1#64 <<< len) - 1) <<< pos
      extendIn f.ty ((s.sget wk f.c.toNat &&& ~~~mask) ||| ((s.sget wk f.a.toNat <<< pos) &&& mask)))

/-- R91, R100: SCLZ and SPOPC count, SSET writes a truth value, SSEL chooses by all 64 bits of S[C], SMOV copies, and MKJOIN makes a mask of 32 lanes.
R93: SMOVI, SMOVHI and SADDI. -/
def Obligations.ScalarChoicesAndImmediates : Prop :=
  (∀ f : Sr,
     SetsScalar (.sclz f) f.g f.d (fun s wk => BitVec.ofNat 64 (clz (tyW f.ty) (s.sget wk f.a.toNat).toNat)) ∧
     SetsScalar (.spopc f) f.g f.d (fun s wk => BitVec.ofNat 64 (popc (tyW f.ty) (s.sget wk f.a.toNat).toNat)) ∧
     SetsScalar (.sset f) f.g f.d (fun s wk =>
       if condInt f.cond (intIn f.ty (s.sget wk f.a.toNat)) (intIn f.ty (s.sget wk f.b.toNat)) then 1 else 0) ∧
     SetsScalar (.ssel f) f.g f.d (fun s wk =>
       extendIn f.ty (if s.sget wk f.c.toNat = 0 then s.sget wk f.b.toNat else s.sget wk f.a.toNat)) ∧
     SetsScalar (.smov f) f.g f.d (fun s wk => extendIn f.ty (s.sget wk f.a.toNat)) ∧
     SetsScalar (.mkjoin f) f.g f.d (fun s wk =>
       if f.a = 63 then 0xFFFFFFFF else (lo32 (s.sget wk f.a.toNat)).setWidth 64)) ∧
  (∀ f : Im,
     SetsScalar (.smovi f) f.g f.d (fun _ _ =>
       if f.ty = .s32 ∨ f.ty = .s64 then f.imm.signExtend 64 else f.imm.setWidth 64) ∧
     SetsScalar (.smovhi f) f.g f.d (fun s wk => f.imm ++ lo32 (s.sget wk f.a.toNat)) ∧
     SetsScalar (.saddi f) f.g f.d (fun s wk => extendIn f.ty (s.sget wk f.a.toNat + f.imm.signExtend 64)))

/-- R94, R95, R123, R130: PFROM takes a bit of a scalar or whether a register is nonzero; PLOG combines two predicates; VCMP and VFCMP write a
relation. R48, R109, R110: NOP changes nothing; EXIT ends every active thread, or has it wait at the EXIT while a global answer is outstanding, and
frees it from its warp's counter entries; YIELD marks its active threads. -/
def Obligations.PredicatesAndPlainControl : Prop :=
  ((∀ f : Sr,
     SetsPred (.pfrom f) f.g f.d.toNat (fun s th =>
       if f.bit8 then (s.sget (s.wkOf th) f.a.toNat).getLsbD (laneOfTh th) else decide (s.lane th f.ty.is64 f.a ≠ 0)) ∧
     SetsPred (.plog f) f.g f.d.toNat (fun s th =>
       let a := s.pget th f.a.toNat != f.mod.getLsbD 10
       let b := s.pget th f.b.toNat != f.mod.getLsbD 11
       if f.plogOp = 0 then a && b else if f.plogOp = 1 then a || b else a != b)) ∧
   (∀ f : Vr,
     SetsPred (.vcmp f) f.g f.d.toNat (fun s th =>
       condInt f.cond3 (intOf f.ty.isSigned (tyW f.ty) (s.lane th f.ty.is64 f.a))
         (intOf f.ty.isSigned (tyW f.ty) (s.opB (s.wkOf th) th f.ty.is64 f))) ∧
     SetsPred (.vfcmp f) f.g f.d.toNat (fun s th =>
       let e := (tyElems f.ty).1
       let m := tyFmt f.ty
       condFloat f.cond4 (m.value (elem e (s.lane th f.ty.is64 f.a) f.bit12.toNat))
         (m.value (elem e (s.opB (s.wkOf th) th f.ty.is64 f) f.bit12.toNat))))) ∧
  ((∀ gd : Guard, Acts (.nop gd) gd always (fun s _ _ t => t = s)) ∧
   (∀ f : Ct, Acts (.exit f) f.g always (fun s _ g t =>
     (∀ th ∈ s.active g f.g, (SMap.look t.threads th).map Thread.stat = some (if s.awaitsAnswer th then .exiting else .exited)) ∧
     (∀ th, th ∉ s.active g f.g → SMap.look t.threads th = SMap.look s.threads th) ∧
     t = { s with threads := t.threads, groups := t.groups, warps := t.warps })) ∧
   (∀ f : Sr, Acts (.yield f) f.g always (fun s gid g t =>
     SMap.look t.groups gid = some { g with yielders := g.yielders ++ s.active g f.g } ∧ t = { s with groups := t.groups })))

/-- R117, R119, R121, R52: the integer arithmetic of lane registers, element by element: exact, then wrapped or saturated. -/
def Obligations.VectorArithmetic : Prop :=
  ∀ f : Vr,
    let w := (tyElems f.ty).1
    let sg := f.ty.isSigned
    let a := fun (s : State) th => s.lane th f.ty.is64 f.a
    let b := fun (s : State) th => s.opB (s.wkOf th) th f.ty.is64 f
    let c := fun (s : State) th => s.lane th f.ty.is64 f.c
    SetsLane (.vadd f) f.g f.ty.is64 f.d (fun s th =>
      perElem f.ty (fun x y _ => narrowInt sg f.sat w (intOf sg w x + intOf sg w y)) (a s th) (b s th) (c s th)) ∧
    SetsLane (.vsub f) f.g f.ty.is64 f.d (fun s th =>
      perElem f.ty (fun x y _ => narrowInt sg f.sat w (intOf sg w x - intOf sg w y)) (a s th) (b s th) (c s th)) ∧
    SetsLane (.vmul f) f.g f.ty.is64 f.d (fun s th =>
      perElem f.ty (fun x y _ => narrowInt sg f.sat w (intOf sg w x * intOf sg w y)) (a s th) (b s th) (c s th)) ∧
    SetsLane (.vmulh f) f.g f.ty.is64 f.d (fun s th =>
      perElem f.ty (fun x y _ => wrapTo w (intOf sg w x * intOf sg w y / 2 ^ w)) (a s th) (b s th) (c s th)) ∧
    (f.bit8 = false → SetsLane (.vmad f) f.g f.ty.is64 f.d (fun s th =>
      perElem f.ty (fun x y z => narrowInt sg f.sat w (intOf sg w x * intOf sg w y + intOf sg w z)) (a s th) (b s th) (c s th))) ∧
    (f.bit8 = true → SetsLane (.vmad f) f.g true f.d (fun s th =>
      narrowInt sg f.sat 64 (intOf sg 32 (s.lane th false f.a) * intOf sg 32 (s.opB (s.wkOf th) th false f) + intOf sg 64 (s.lane th true f.c)))) ∧
    SetsLane (.vmin f) f.g f.ty.is64 f.d (fun s th =>
      perElem f.ty (fun x y _ => wrapTo w (min (intOf sg w x) (intOf sg w y))) (a s th) (b s th) (c s th)) ∧
    SetsLane (.vmax f) f.g f.ty.is64 f.d (fun s th =>
      perElem f.ty (fun x y _ => wrapTo w (max (intOf sg w x) (intOf sg w y))) (a s th) (b s th) (c s th)) ∧
    SetsLane (.vabsd f) f.g f.ty.is64 f.d (fun s th =>
      perElem f.ty (fun x y _ => (intOf sg w x - intOf sg w y).natAbs) (a s th) (b s th) (c s th)) ∧
    SetsLane (.vdot4 f) f.g f.ty.is64 f.d (fun s th =>
      let sb := sg != f.bit8
      narrowInt (sg || sb) f.sat 32 (intOf (sg || sb) 32 (c s th)
        + ((List.range (tyElems f.ty).2).map (fun k => intOf sg w (elem w (a s th) k) * intOf sb w (elem w (b s th) k))).sum))

/-- R117, R118, R92, R122: the bit forms of lane registers. R120, R136: VADDC writes the sum and, where CO names one, the carry; VCVT8 without EF
widens into two registers or narrows into bytes of D. R123, R124, R293: select, move and the immediate forms of lane registers. -/
def Obligations.VectorBitsAndMoves : Prop :=
  (∀ f : Vr,
     let a := fun (s : State) th => s.lane th f.ty.is64 f.a
     let b := fun (s : State) th => s.opB (s.wkOf th) th f.ty.is64 f
     let nb := fun (s : State) th => if f.bit8 then 2 ^ tyW f.ty - 1 - b s th % 2 ^ tyW f.ty else b s th
     SetsLane (.vand f) f.g f.ty.is64 f.d (fun s th => a s th &&& nb s th) ∧
     SetsLane (.vor f) f.g f.ty.is64 f.d (fun s th => a s th ||| nb s th) ∧
     SetsLane (.vxor f) f.g f.ty.is64 f.d (fun s th => a s th ^^^ nb s th) ∧
     SetsLane (.vshl f) f.g f.ty.is64 f.d (fun s th =>
       let e := tyElems f.ty
       let n := s.shiftB (s.wkOf th) th f
       if e.2 = 1 then shlW e.1 (a s th) n else joinElems e.1 ((List.range e.2).map (fun k => shlW e.1 (elem e.1 (a s th) k) (elem e.1 n k)))) ∧
     SetsLane (.vshr f) f.g f.ty.is64 f.d (fun s th =>
       let e := tyElems f.ty
       let n := s.shiftB (s.wkOf th) th f
       let sh := if f.ty.isSigned then shrA else shrL
       if e.2 = 1 then sh e.1 (a s th) n else joinElems e.1 ((List.range e.2).map (fun k => sh e.1 (elem e.1 (a s th) k) (elem e.1 n k)))) ∧
     SetsLane (.vbfx f) f.g f.ty.is64 f.d (fun s th =>
       bfx f.ty.isSigned (tyW f.ty) (a s th) (s.opB (s.wkOf th) th false f)) ∧
     SetsLane (.vbfi f) f.g f.ty.is64 f.d (fun s th =>
       bfi (tyW f.ty) (a s th) (s.opB (s.wkOf th) th false f) (s.lane th f.ty.is64 f.c)) ∧
     SetsLane (.vclz f) f.g false f.d (fun s th => clz (tyW f.ty) (a s th)) ∧
     SetsLane (.vpopc f) f.g false f.d (fun s th => popc (tyW f.ty) (a s th)) ∧
     SetsLane (.vperm f) f.g f.ty.is64 f.d (fun s th =>
       joinElems 8 ((List.range 4).map (fun k => permByte (a s th) (b s th) (elem 8 (s.lane th f.ty.is64 f.c) k))))) ∧
  (∀ f : Vr,
     Acts (.vaddc f) f.g always (fun s _ g t =>
       let b := fun th => if f.bit12 then 2 ^ 32 - 1 - s.opB (s.wkOf th) th false f else s.opB (s.wkOf th) th false f
       let sum := fun th => (s.vget th f.a.toNat).toNat + b th + (f.bit8 && s.pget th f.c.toNat).toNat
       (∀ th ∈ s.active g f.g, (f.d ≠ 255 → t.vget th f.d.toNat = BitVec.ofNat 32 (sum th)) ∧
         (f.co ≠ 7 → t.pget th f.co = decide (2 ^ 32 ≤ sum th))) ∧
       (∀ th r, r < 256 → ¬(th ∈ s.active g f.g ∧ r = f.d.toNat) → t.vget th r = s.vget th r) ∧
       (∀ th p, p < 8 → ¬(th ∈ s.active g f.g ∧ p = f.co) → t.pget th p = s.pget th p) ∧
       t = { s with v := t.v, vbad := t.vbad, pr := t.pr }) ∧
     (f.bit8 = true → Acts (.vcvt8 f) f.g always (fun s _ g t =>
       (∀ th ∈ s.active g f.g,
         (t.vget th f.d.toNat).toNat = (widen8 f (s.vget th f.a.toNat).toNat).1 % 2 ^ 32 ∧
         (t.vget th (f.d.toNat + 1)).toNat = (widen8 f (s.vget th f.a.toNat).toNat).2 % 2 ^ 32) ∧
       (∀ th r, r < 256 → ¬(th ∈ s.active g f.g ∧ (r = f.d.toNat ∨ r = f.d.toNat + 1)) → t.vget th r = s.vget th r) ∧ onlyLanes s t)) ∧
     (f.bit8 = false → f.ef = false → SetsLane (.vcvt8 f) f.g false f.d (fun s th =>
       putBytes (s.vget th f.d.toNat).toNat (cvt8At f)
         ((narrowElems f.ty (s.vget th f.a.toNat).toNat (s.opB (s.wkOf th) th false f)).map ((fmt8 f).round (rmOf f) f.sat))))) ∧
  ((∀ f : Vr,
     SetsLane (.vsel f) f.g f.ty.is64 f.d (fun s th =>
       if s.pget th f.c.toNat != f.bit8 then s.lane th f.ty.is64 f.a else s.opB (s.wkOf th) th f.ty.is64 f) ∧
     SetsLane (.vmov f) f.g f.ty.is64 f.d (fun s th => s.movSource (s.wkOf th) th f)) ∧
   (∀ f : Im,
     SetsLane (.vmovi f) f.g f.ty.is64 f.d (fun _ _ =>
       if f.ty = .s64 then (f.imm.signExtend 64).toNat
       else if f.ty = .f64 then Fmt.f64.round .rne false (Fmt.f32.value f.imm.toNat) else f.imm.toNat) ∧
     SetsLane (.vaddi f) f.g f.ty.is64 f.d (fun s th => s.lane th f.ty.is64 f.a + (f.imm.signExtend 64).toNat)))

/-- R127, R72: the floating arithmetic forms write the exact result of each element, rounded once. R129, R131 to R134: minimum, maximum, sign, class,
rounding to integral, scaling and conversion of floating elements. -/
def Obligations.FloatForms : Prop :=
  (∀ f : Vr,
     let m := tyFmt f.ty
     let rm := rmOf f
     let sets := fun (i : Instr) (op : XR → XR → XR → XR) => SetsLane i f.g f.ty.is64 f.d (fun s th =>
       perElem f.ty (fun a b c => m.round rm f.sat (op (m.value a) (m.value b) (m.value c)))
         (s.lane th f.ty.is64 f.a) (s.opB (s.wkOf th) th f.ty.is64 f) (s.lane th f.ty.is64 f.c))
     sets (.vfadd f) (fun a b _ => XR.add rm a b) ∧ sets (.vfsub f) (fun a b _ => XR.add rm a b.neg) ∧
     sets (.vfmul f) (fun a b _ => a.mul b) ∧ sets (.vfma f) (fun a b c => XR.fma rm a b c) ∧
     sets (.vfdiv f) (fun a b _ => a.div b) ∧ sets (.vfsqrt f) (fun a _ _ => a.sqrt) ∧
     sets (.vfrcp f) (fun a _ _ => a.rcp) ∧ sets (.vfrsq f) (fun a _ _ => a.rsqrt) ∧
     sets (.vfexp2 f) (fun a _ _ => a.exp2) ∧ sets (.vflog2 f) (fun a _ _ => a.log2) ∧
     sets (.vftanh f) (fun a _ _ => a.tanh) ∧ sets (.vfsigm f) (fun a _ _ => a.sigmoid)) ∧
  (∀ f : Vr,
     let m := tyFmt f.ty
     let e := tyElems f.ty
     let a := fun (s : State) th => s.lane th f.ty.is64 f.a
     let b := fun (s : State) th => s.opB (s.wkOf th) th f.ty.is64 f
     let c := fun (s : State) th => s.lane th f.ty.is64 f.c
     SetsLane (.vfmin f) f.g f.ty.is64 f.d (fun s th => perElem f.ty (fun x y _ => fminmaxNum m false x y) (a s th) (b s th) (c s th)) ∧
     SetsLane (.vfmax f) f.g f.ty.is64 f.d (fun s th => perElem f.ty (fun x y _ => fminmaxNum m true x y) (a s th) (b s th) (c s th)) ∧
     SetsLane (.vfsgn f) f.g f.ty.is64 f.d (fun s th => perElem f.ty (fun x y _ => signOp m f.mode x y) (a s th) (b s th) (c s th)) ∧
     SetsLane (.vfclass f) f.g false f.d (fun s th =>
       joinElems 16 ((List.range e.2).map (fun k => 2 ^ classBit m (elem e.1 (a s th) k)))) ∧
     SetsLane (.vfrnd f) f.g f.ty.is64 f.d (fun s th => perElem f.ty (fun x _ _ => roundIntegral m (rmOf f) x) (a s th) (b s th) (c s th)) ∧
     SetsLane (.vfldx f) f.g f.ty.is64 f.d (fun s th =>
       let n := fun k => if e.2 = 1 then intOf true 32 (s.opB (s.wkOf th) th false f)
         else intOf true 16 (elem 16 (s.opB (s.wkOf th) th false f) k)
       joinElems e.1 ((List.range e.2).map (fun k => m.round (rmOf f) f.sat ((m.value (elem e.1 (a s th) k)).scale (n k))))) ∧
     SetsLane (.vcvt f) f.g f.ty.is64 f.d (fun s th =>
       let src := (tyOfNat f.cond4).getD .b32
       cvtWord f src (s.lane th src.is64 f.a) (s.opB (s.wkOf th) th false f)))

/-- R34, R106, R107: BRA, BRX, CALL, CALLX and RET in an ordinary grid, or within a segment: every active thread's PC becomes its target, CALL and
CALLX write the address of the next clause header into the pair v30, and nothing else changes. -/
def Obligations.Transfers : Prop :=
  ∀ f : Ct,
    let stays := fun (target : State → Nat → Group → Nat → W64) (s : State) (gid : Nat) (g : Group) =>
      ∃ gr, s.gridOfTeam g.team = some gr ∧ ∀ th ∈ s.active g f.g, s.destOf gr th (target s gid g th) = .here
    let goes := fun (target : State → Nat → Group → Nat → W64) (link : Bool) (s : State) (gid : Nat) (g : Group) (t : State) =>
      (∀ th ∈ s.active g f.g, (SMap.look t.threads th).map Thread.pc = some (target s gid g th) ∧
        (link = true → t.vgetp th 30 = g.nextHead)) ∧
      (∀ th, th ∉ s.active g f.g → SMap.look t.threads th = SMap.look s.threads th) ∧
      (∀ th r, r < 256 → ¬(link = true ∧ th ∈ s.active g f.g ∧ (r = 30 ∨ r = 31)) → t.vget th r = s.vget th r) ∧
      (∃ g', SMap.look t.groups gid = some g' ∧ g'.moved = g.moved ++ s.active g f.g) ∧
      t = { s with threads := t.threads, groups := t.groups, v := t.v, vbad := t.vbad }
    let rel := fun (_ : State) (_ : Nat) (g : Group) (_ : Nat) => g.pc + f.off.signExtend 64
    let reg := fun (s : State) (_ : Nat) (_ : Group) (th : Nat) =>
      (if f.cmod = 1 then s.sget (s.wkOf th) f.a.toNat else s.vgetp th f.a.toNat) + f.off.signExtend 64
    let ret := fun (s : State) (_ : Nat) (_ : Group) (th : Nat) => s.vgetp th f.a.toNat
    Acts (.bra f) f.g (stays rel) (goes rel false) ∧ Acts (.brx f) f.g (stays reg) (goes reg false) ∧
    Acts (.call f) f.g (stays rel) (goes rel true) ∧ Acts (.callx f) f.g (stays reg) (goes reg true) ∧
    Acts (.ret f) f.g (stays ret) (goes ret false)

/-- R102 to R105: SRD outside the determinism table reads its special register, per warp into a scalar register (of the warp's first active thread)
and per thread into a lane register or, for %cycle and %wall, a pair; SWR outside a DET context writes %wtimer of every warp with an active thread; in
a DET context SWR and an SRD of %cycle, %wall or %wtimer raise DETERMINISM. -/
def Obligations.SpecialRegisterForms : Prop :=
  ∀ f : Yf,
    let free := fun (s : State) (_ : Nat) (_ : Group) => ¬(s.curCtx.det = true ∧ detSpecial f.sel.toNat = true)
    let first := fun (s : State) (g : Group) (wk : Nat) => ((s.active g f.g).find? (fun th => s.wkOf th == wk)).getD 0
    (f.ymod.getLsbD 0 = true → Acts (.srd f) f.g free (fun s _ g t =>
      (∀ wk ∈ s.warpsOf (s.active g f.g), t.sget wk f.d.toNat = if f.d = 63 then 0 else s.special wk (first s g wk) f.sel.toNat) ∧
      (∀ wk r, r < 64 → ¬(wk ∈ s.warpsOf (s.active g f.g) ∧ r = f.d.toNat) → t.sget wk r = s.sget wk r) ∧ onlyScalars s t)) ∧
    (f.ymod.getLsbD 0 = false → Acts (.srd f) f.g free (fun s _ g t =>
      let wide := f.sel.toNat = 0xC ∨ f.sel.toNat = 0xD
      (∀ th ∈ s.active g f.g,
        if wide then t.vgetp th f.d.toNat = s.special (s.wkOf th) th f.sel.toNat
        else t.vget th f.d.toNat = if f.d = 255 then 0 else lo32 (s.special (s.wkOf th) th f.sel.toNat)) ∧
      (∀ th r, r < 256 → ¬(th ∈ s.active g f.g ∧ (r = f.d.toNat ∨ (wide ∧ r = f.d.toNat + 1))) → t.vget th r = s.vget th r) ∧
      onlyLanes s t)) ∧
    Acts (.swr f) f.g (fun s _ _ => s.curCtx.det = false) (fun s _ g t =>
      (∀ wk ∈ s.warpsOf (s.active g f.g), ∀ w, SMap.look s.warps wk = some w →
        (SMap.look t.warps wk) = some { w with
          wtimer := if f.ymod.getLsbD 0 then lo32 (s.sget wk f.a.toNat) else s.vget (first s g wk) f.a.toNat
          wtAt := s.teamCyc w.team }) ∧
      (∀ wk, wk ∉ s.warpsOf (s.active g f.g) → SMap.look t.warps wk = SMap.look s.warps wk) ∧ t = { s with warps := t.warps }) ∧
    TrapsAll (.swr f) f.g 0x11 (fun s _ _ => s.curCtx.det = true) ∧
    TrapsAll (.srd f) f.g 0x11 (fun s _ _ => s.curCtx.det = true ∧ detSpecial f.sel.toNat = true)

/-- R103: what the special registers hold for a thread of a placed team; %lane to %tid.count, %team, %teams and %warp by R103's own formulas. -/
def Obligations.SpecialRegisterValues : Prop :=
  ∀ (s : State) (wk th : Nat) (t : Team) (g : Grid), SMap.look s.teams (teamOfTh th) = some t → SMap.look s.grids t.grid = some g →
    s.special wk th 0x0 = BitVec.ofNat 64 (th % 32) ∧ s.special wk th 0x1 = BitVec.ofNat 64 (th % 2048) ∧
    s.special wk th 0x2 = BitVec.ofNat 64 (32 * g.warps) ∧ s.special wk th 0x3 = BitVec.ofNat 64 t.idx ∧
    s.special wk th 0x4 = BitVec.ofNat 64 g.nteam ∧ s.special wk th 0x5 = BitVec.ofNat 64 (th % 2048 / 32) ∧
    s.special wk th 0x9 = g.num.setWidth 64 ∧ s.special wk th 0xD = BitVec.ofNat 64 ((s.now - s.resetAt) / 84)

/-- R96, R98, R99, R101: the rendezvous forms with a scalar result, and JOIN. BALLOT gathers one bit of each active lane that holds the predicate;
VRDLANE reads lane k's register, or 0 where no active thread stands there. -/
def Obligations.ScalarRendezvous : Prop :=
  ∀ f : Sr,
    let act := fun (s : State) (g : Group) => s.active g f.g
    let k := fun (s : State) (wk : Nat) => if f.bit8 then f.lane else (s.sget wk f.c.toNat).toNat % 32
    let writes := fun (s : State) (g : Group) (wk : Nat) (t : State) (x : W64) =>
      t.sget wk f.d.toNat = (if act s g = [] then s.sget wk f.d.toNat else if f.d = 63 then 0 else x) ∧
      (∀ wk' r, r < 64 → ¬(wk' = wk ∧ r = f.d.toNat) → t.sget wk' r = s.sget wk' r) ∧ sameLanes s t
    Meets (.join f) f.g (fun s wk => lo32 (s.sget wk f.a.toNat)) (fun s _ _ t => sameScalars s t ∧ sameLanes s t) ∧
    Meets (.ballot f) f.g (fun s wk => lo32 (s.sget wk f.b.toNat)) (fun s g wk t =>
      writes s g wk t ((maskOf (((act s g).filter (fun th => s.pget th f.a.toNat != f.bit8)).map laneOfTh)).setWidth 64)) ∧
    Meets (.vrdlane f) f.g (fun s wk => lo32 (s.sget wk f.b.toNat)) (fun s g wk t =>
      writes s g wk t (match s.inLane g f.g (k s wk) with | some th => BitVec.ofNat 64 (s.lane th f.ty.is64 f.a) | none => 0)) ∧
    Meets (.vwrlane f) f.g (fun s wk => lo32 (s.sget wk f.b.toNat)) (fun s g wk t =>
      let hits := fun th => s.inLane g f.g (k s wk) = some th
      (∀ th, hits th → if f.ty.is64 then t.vgetp th f.d.toNat = s.sget wk f.a.toNat
        else t.vget th f.d.toNat = if f.d = 255 then 0 else lo32 (s.sget wk f.a.toNat)) ∧
      (∀ th r, r < 256 → ¬(hits th ∧ (r = f.d.toNat ∨ (f.ty.is64 = true ∧ r = f.d.toNat + 1))) → t.vget th r = s.vget th r) ∧ sameScalars s t)

/-- R96, R125, R126, R137, R138: the rendezvous forms with lane results. VSHFL reads the source lane of each active lane, or 0 where no active thread
stands there; VMBCNT counts the active lanes below with the predicate; VCVT8 with EF and VCVTMX narrow the block that the active lanes make. -/
def Obligations.LaneRendezvous : Prop :=
  ∀ f : Vr,
    let act := fun (s : State) (g : Group) => s.active g f.g
    let only := fun (s : State) (g : Group) (wide : Bool) (t : State) =>
      ∀ th r, r < 256 → ¬(th ∈ act s g ∧ (r = f.d.toNat ∨ (wide = true ∧ r = f.d.toNat + 1))) → t.vget th r = s.vget th r
    let block := fun (s : State) (g : Group) (elems : Nat → List XR) (k : Nat) =>
      (List.range 32).map (fun l => (s.inLane g f.g l).bind (fun th => (elems th)[k]?))
    let code := fun (bs : List (Option Nat)) (th : Nat) => ((bs[laneOfTh th]?).getD none).getD 0
    Meets (.vshfl f) f.g (fun s wk => lo32 (s.sget wk f.b.toNat)) (fun s g _ t =>
      (∀ th ∈ act s g,
        let k := if f.imm then f.k else (s.vget th f.c.toNat).toNat % 32
        let x := match s.inLane g f.g (shflSource f (laneOfTh th) k) with | some y => s.lane y f.ty.is64 f.a | none => 0
        if f.ty.is64 then t.vgetp th f.d.toNat = BitVec.ofNat 64 x
        else t.vget th f.d.toNat = if f.d = 255 then 0 else BitVec.ofNat 32 x) ∧
      only s g f.ty.is64 t ∧ sameScalars s t) ∧
    Meets (.vmbcnt f) f.g (fun s wk => lo32 (s.sget wk f.b.toNat)) (fun s g _ t =>
      (∀ th ∈ act s g, f.d ≠ 255 → t.vget th f.d.toNat = BitVec.ofNat 32 (((List.range (if f.bit9 then laneOfTh th + 1 else laneOfTh th)).filter
        (fun l => (act s g).any (fun y => laneOfTh y == l && (s.pget y f.a.toNat != f.bit8)))).length)) ∧
      only s g false t ∧ sameScalars s t) ∧
    (f.bit8 = false → f.ef = true → Meets (.vcvt8 f) f.g (fun s wk => lo32 (s.sget wk f.c.toNat)) (fun s g _ t =>
      let elems := fun th => narrowElems f.ty (s.vget th f.a.toNat).toNat (s.opB (s.wkOf th) th false f)
      (∀ th ∈ act s g, f.d ≠ 255 → t.vget th f.d.toNat = BitVec.ofNat 32 (putBytes (s.vget th f.d.toNat).toNat (cvt8At f)
        ((List.range (if f.ty = .f32 then 2 else 4)).map (fun k => code (efRound (fmt8 f) f.sat (block s g elems k)) th)))) ∧
      only s g false t ∧ sameScalars s t)) ∧
    Meets (.vcvtmx f) f.g (fun s wk => lo32 (s.sget wk f.b.toNat)) (fun s g wk t =>
      let elems := fun th => mxElems f.ty (s.vget th f.a.toNat).toNat
      let n := if f.ty = .f32 then 1 else 2
      let scale := fun k => mxScale (fmt8 f) (block s g elems k)
      (∀ th ∈ act s g, f.d ≠ 255 → t.vget th f.d.toNat = BitVec.ofNat 32 (putBytes (s.vget th f.d.toNat).toNat (mxAt f)
        ((List.range n).map (fun k => code (narrowBlock (fmt8 f) (rmOf f) f.sat f.ef (scaleBlock (scale k) (block s g elems k))) th)))) ∧
      only s g false t ∧
      t.sget wk f.c.toNat = (if act s g = [] then s.sget wk f.c.toNat else if f.c = 63 then 0
        else BitVec.ofNat 64 (joinElems 8 ((List.range n).map scale))) ∧
      (∀ wk' r, r < 64 → ¬(wk' = wk ∧ r = f.c.toNat) → t.sget wk' r = s.sget wk' r))

/-- R139 to R143, R149: LD, SLD, LDS and LDX. Where no check of R146 fails, each warp with an active thread issues one load of SZ bytes at the formed
addresses, for its destination; nothing is written before the load returns. -/
def Obligations.Loads : Prop :=
  ∀ f : Me,
    let ask := loadAsk f
    let more := fun (scalar : Bool) (o : MemOp) => o.dst = some f.d ∧ o.regs = szRegs f.sz ∧ o.sdst = scalar ∧ o.acq = acqOf f.ord f.scope ∧
      o.rel = none ∧ o.w = wOf f.w ∧ o.frag = none
    IssuesAccess (.ld f) f.g f.w false false (ask .global) .load (szBytes f.sz) (fun _ _ => True) (more false) ∧
    IssuesAccess (.sld f) f.g f.w false true (ask .global) .load (szBytes f.sz) (fun _ _ => True) (more true) ∧
    IssuesAccess (.lds f) f.g f.w false false (ask .local_) .load (szBytes f.sz) (fun _ _ => True) (more false) ∧
    IssuesAccess (.ldx f) f.g f.w false false (ask .group) .load (szBytes f.sz) (fun _ _ => True) (more false)

/-- R139 to R143, R150 to R152: ST, SST, STS and STX. Where no check of R146 fails, and with CHK no bound action traps, each warp with an active
thread issues one store-queue entry with the data at the formed addresses, clamped where the bound register says so. No byte of memory changes at
issue; with CHK only bound registers may change besides. -/
def Obligations.Stores : Prop :=
  ∀ f : Me,
    let ask := storeAsk f
    let more := fun (o : MemOp) => o.dst = none ∧ o.rel = relOf f.ord f.scope ∧ o.acq = none ∧ o.w = wOf f.w
    let plain := fun (i : Instr) (wh : Where) (scalar : Bool) => f.chk = false →
      IssuesAccess i f.g f.w true scalar (ask wh scalar) .store (szBytes f.sz) (fun _ _ => True) more
    let checked := fun (i : Instr) (wh : Where) (scalar : Bool) => f.chk = true →
      ∀ (s : State) (gid : Nat) (g : Group) (acc : Nat → LaneAcc), i.wf = true → s.clear i f.g gid g = true → s.hasRoom g f.g f.w true →
        (∀ wk ∈ s.warpsOf g.threads, ∃ w gr, SMap.look s.warps wk = some w ∧ s.gridOfTeam w.team = some gr) →
        (∀ wk ∈ s.warpsOf (s.active g f.g), ∀ th ∈ s.performers g f.g scalar wk, s.check th (ask wh scalar s th) = .ok (acc th) ∧
          ((s.boundOf wk).act = 2 → (boundApply (s.boundOf wk) f.sz (acc th).data).1 = 0)) →
        ∃ t : State, exec i s = .next (t.finish gid [] []) ∧
          t = { s with ops := t.ops, nid := t.nid, warps := t.warps, ctxs := t.ctxs, extUse := t.extUse } ∧
          ∀ wk ∈ s.warpsOf (s.active g f.g), ∃ id o, SMap.look t.ops id = some o ∧ s.nid ≤ id ∧ id < t.nid ∧ o.wk = wk ∧ o.kind = .store ∧
            o.width = szBytes f.sz ∧ o.pc = g.pc ∧
            o.lanes = (s.performers g f.g scalar wk).map (fun th =>
              { acc th with data := (boundApply (s.boundOf wk) f.sz (acc th).data).2 }) ∧ more o
    (plain (.st f) .global false ∧ plain (.sst f) .global true ∧ plain (.sts f) .local_ false ∧ plain (.stx f) .group false) ∧
    (checked (.st f) .global false ∧ checked (.sts f) .local_ false ∧ checked (.stx f) .group false)

/-- R152, R191: what a bound does to the data of one store: clamp replaces an element below the low bound, and a NaN, by the low bound and one above
the high bound by the high bound; log and trap store the data as it is; each element outside counts. -/
def Obligations.BoundActions : Prop :=
  (∀ (b : Bound) (m : Fmt) (x : Nat),
    boundElem b m x =
      if (m.value x).isNan = true ∨ (m.value x).lt (m.value (boundIn m b.low)) = true then (true, boundIn m b.low)
      else if (m.value (boundIn m b.high)).lt (m.value x) = true then (true, boundIn m b.high) else (false, x)) ∧
  (∀ (b : Bound) (m : Fmt) (xs : List Nat),
    (boundList b m xs).1 = (xs.filter (fun x => (boundElem b m x).1)).length ∧
    (boundList b m xs).2 = if b.act = 1 then xs.map (fun x => (boundElem b m x).2) else xs) ∧
  (∀ (b : Bound) (n : Nat), 0 < n → (b.hit n).sticky = true ∧ (b.hit n).count.toNat = min (b.count.toNat + n) 0xFFFFFFFF ∧
    (b.hit n).low = b.low ∧ (b.hit n).high = b.high ∧ (b.hit n).act = b.act)

/-- R142, R143, R145, R158, R164: ATOM, ACAS, ATOMS and ACASS outside the determinism table, where no check of R146 fails and no input queue of a
service warp is full: each warp with an active thread issues one atomic operation; in a DET context ATOM with .fadd and ACAS with .spec raise
DETERMINISM. -/
def Obligations.Atomics : Prop :=
  ∀ f : Ma,
    let ask := atomAsk f
    let pre := fun (det : Bool) (s : State) (g : Group) => (det = true → s.curCtx.det = false) ∧
      ∀ th ∈ s.active g f.g, ∀ a, s.check th (ask .global s th) = .ok a → (s.requestsAt (s.laneOwner a)).length < 128
    let here := fun (_ : State) (_ : Group) => True
    let more := fun (o : MemOp) => o.dst = (if f.ret then some f.d else none) ∧ o.acq = acqOf f.ord f.scope ∧ o.rel = relOf f.ord f.scope ∧
      o.aop = f.aop ∧ o.use_ = f.use_ ∧ o.ret = f.ret ∧ o.held = false ∧ o.w = wOf f.w
    IssuesAccess (.atom f) f.g f.w false false (ask .global) .atomic (szBytes f.sz) (pre (f.aop == .fadd)) more ∧
    IssuesAccess (.acas f) f.g f.w false false (ask .global) .cas (szBytes f.sz) (pre (f.use_ == .spec)) more ∧
    IssuesAccess (.atoms f) f.g f.w false false (ask .local_) .atomic (szBytes f.sz) here more ∧
    IssuesAccess (.acass f) f.g f.w false false (ask .local_) .cas (szBytes f.sz) here more ∧
    (f.aop = .fadd → TrapsAll (.atom f) f.g 0x11 (fun s _ _ => s.curCtx.det = true)) ∧
    (f.use_ = .spec → TrapsAll (.acas f) f.g 0x11 (fun s _ _ => s.curCtx.det = true))

/-- R155 to R157: PREF issues a request for the active threads whose address an extent lets them read, drops the others and never traps; LINV and
FENCE issue one operation for each warp with an active thread. R161, R162, R301: XOPEN and XCLOSE with S[B] of 1 to 65,536 cells that all pass their
checks, where no input queue of their service warps is full, issue one operation over those cells for each warp with an active thread, which stops,
if it faults, every active thread of the warp; S[B] outside that range traps with EXACT_CELL, with an entry of KIND 0. -/
def Obligations.FencesAndCells : Prop :=
  (∀ f : Me,
     let ask := prefAsk f
     let wanted := fun (s : State) (g : Group) (wk : Nat) => ((s.active g f.g).filter (fun th => s.wkOf th == wk)).filterMap (fun th =>
       match s.check th (ask s th) with
       | .ok a => if (s.extentAt (s.coreOfTh th) a.addr.toNat).any (fun e => e.r) then some a else none
       | _ => none)
     let one := fun (i : Instr) (kind : MKind) (acq rel : Option Scope) => Acts i f.g (fun s _ g => s.hasRoom g f.g f.w false) (fun s _ g t =>
       onlyIssues s t ∧ ∀ wk ∈ s.warpsOf (s.active g f.g), ∃ id o, SMap.look t.ops id = some o ∧ s.nid ≤ id ∧ o.wk = wk ∧ o.kind = kind ∧
         o.lanes = [] ∧ o.acq = acq ∧ o.rel = rel ∧ o.w = wOf f.w)
     Acts (.pref f) f.g (fun s _ g => s.hasRoom g f.g f.w false) (fun s _ g t =>
       onlyIssues s t ∧ ∀ wk ∈ s.warpsOf (s.active g f.g), wanted s g wk ≠ [] →
         ∃ id o, SMap.look t.ops id = some o ∧ s.nid ≤ id ∧ o.wk = wk ∧ o.kind = .pref ∧ o.lanes = wanted s g wk ∧ o.dst = none) ∧
     one (.linv f) .linv none none ∧ one (.fence f) .fence (acqOf f.ord f.scope) (relOf f.ord f.scope)) ∧
  (∀ f : Ma,
     let cells := fun (s : State) (wk : Nat) => (s.sget wk f.b.toNat).toNat
     let form := fun (i : Instr) (kind : MKind) =>
       (∀ (s : State) (gid : Nat) (g : Group) (acc : Nat → List LaneAcc), i.wf = true → s.clear i f.g gid g = true → s.hasRoom g f.g f.w false →
         (∀ wk ∈ s.warpsOf (s.active g f.g), 1 ≤ cells s wk ∧ cells s wk ≤ 65536 ∧ (∀ a ∈ acc wk, (s.requestsAt (s.laneOwner a)).length < 128) ∧
           ∀ th ∈ s.performers g f.g true wk, s.checkCells th (s.sget wk f.a.toNat) 0 (cells s wk) = (acc wk, none)) →
         ∃ t : State, exec i s = .next (t.finish gid [] []) ∧ onlyIssues s t ∧
           ∀ wk ∈ s.warpsOf (s.active g f.g), ∃ id o, SMap.look t.ops id = some o ∧ s.nid ≤ id ∧ o.wk = wk ∧ o.kind = kind ∧ o.lanes = acc wk ∧
             o.ths = (s.active g f.g).filter (fun th => s.wkOf th == wk)) ∧
       (∀ (s : State) (gid : Nat) (g : Group) (wk : Nat), i.wf = true → s.clear i f.g gid g = true → s.hasRoom g f.g f.w false →
         s.warpsOf g.threads = [wk] → (SMap.look s.warps wk).isSome = true → s.active g f.g ≠ [] → (cells s wk = 0 ∨ 65536 < cells s wk) →
         ∃ (t : State) (reqs : List TrapReq) (e : REntry) (n : Nat), exec i s = .next (t.finish gid [] reqs) ∧ reqs.map TrapReq.th = s.active g f.g ∧
           (∀ r ∈ reqs, r.code = 0x15 ∧ r.info = s.sget wk f.a.toNat ∧ r.rpc = g.pc + 8 ∧ r.entry = some n) ∧
           ((SMap.look t.warps wk).map (fun w => w.rq.length)) = some (n + 1) ∧
           ((SMap.look t.warps wk).bind (fun w => w.rq[n]?)) = some e ∧ e.kind = 0 ∧ e.trap = 0x15 ∧ e.pc = g.pc)
     form (.xopen f) .xopen ∧ form (.xclose f) .xclose)

/-- R146, R147, R225 to R227: where every active thread of a one-warp group fails a check of a memory form that acts per thread, the form performs
nothing. With a trap the warp's replay queue gains an entry of KIND 0 with each lane's address, and every active thread traps with its code and its
address, resuming after the form; with an extent miss it gains an entry of KIND 1 and the threads park. R148, R427: a faulting answer of an operation
with one faulty lane: one entry of KIND 0 for that lane joins its warp's queue, its registers stay as they were and are no longer pending, and the
thread traps. -/
def Obligations.FailedAccesses : Prop :=
  (let form := fun (i : Instr) (gd : Guard) (w : Wctr) (queued : Bool) (ask : State → Nat → Ask) =>
     ∀ (s : State) (gid : Nat) (g : Group) (wk : Nat) (u : Warp), i.wf = true → s.clear i gd gid g = true → s.hasRoom g gd w queued →
       s.warpsOf g.threads = [wk] → SMap.look s.warps wk = some u → s.curCtx.det = false →
       let act := s.active g gd
       (∀ code : Nat → Nat, act ≠ [] → (∀ th ∈ act, s.check th (ask s th) = .trap (code th)) →
         ∃ (t : State) (e : REntry), exec i s = .next (t.finish gid (s.latches i g) (act.map (fun th =>
             { th := th, code := code th, info := (ask s th).addr, rpc := g.pc + 8, entry := some u.rq.length }))) ∧
           (SMap.look t.warps wk).map Warp.rq = some (u.rq ++ [e]) ∧ e.kind = 0 ∧ e.trap = code (act.headD 0) ∧ e.pc = g.pc ∧
           e.mask = maskOf (act.map laneOfTh) ∧ (∀ th ∈ act, ∃ x ∈ act, laneOfTh x = laneOfTh th ∧
             (SMap.look e.lanes (laneOfTh th)).map RLane.addr = some (ask s x).addr) ∧
           t = { s with nid := t.nid, warps := t.warps, ctxs := t.ctxs }) ∧
       (∀ miss : Nat → Nat, act ≠ [] → (∀ th ∈ act, s.check th (ask s th) = .park (miss th)) →
         ∃ (t : State) (e : REntry), exec i s = .next (t.finish gid (s.latches i g) []) ∧
           (SMap.look t.warps wk).map Warp.rq = some (u.rq ++ [e]) ∧ e.kind = 1 ∧ e.pc = g.pc ∧ e.mask = maskOf (act.map laneOfTh) ∧
           (∀ th ∈ act, (SMap.look t.threads th).map (fun x => (x.stat, x.pc, x.parkPc)) = some (.extentMiss, g.pc, g.pc + 8)) ∧
           t = { s with nid := t.nid, warps := t.warps, threads := t.threads, groups := t.groups })
   (∀ f : Me, form (.ld f) f.g f.w false (loadAsk f .global) ∧ form (.lds f) f.g f.w false (loadAsk f .local_) ∧
     form (.ldx f) f.g f.w false (loadAsk f .group) ∧ form (.st f) f.g f.w true (storeAsk f .global false) ∧
     form (.sts f) f.g f.w true (storeAsk f .local_ false) ∧ form (.stx f) f.g f.w true (storeAsk f .group false)) ∧
   (∀ f : Ma, form (.atom f) f.g f.w false (atomAsk f .global) ∧ form (.acas f) f.g f.w false (atomAsk f .global) ∧
     form (.atoms f) f.g f.w false (atomAsk f .local_) ∧ form (.acass f) f.g f.w false (atomAsk f .local_))) ∧
  (∀ (s : State) (id : Nat) (o : MemOp) (l : LaneAcc) (u : Warp), SMap.look s.ops id = some o → o.lanes = [l] → o.kind ≠ .xopen → o.kind ≠ .xclose → l.flt ≠ 0 →
     s.alive l.th = true → SMap.look s.warps o.wk = some u →
     ∃ (t : State) (e : REntry), exec (.evDeferredFault id false) s = .next t ∧ (SMap.look t.warps o.wk).map Warp.rq = some (u.rq ++ [e]) ∧
       e.kind = 0 ∧ e.trap = l.flt ∧ e.pc = o.pc ∧ e.mask = maskOf [laneOfTh l.th] ∧ SMap.look t.ops id = none ∧ t.v = s.v ∧ t.mem = s.mem)

/-- R143 to R147: the checks of one global access in the order of R146: ADDRESS from 2^48 up, MISALIGNED, WATCH, PROTECTION of a reserved window, an
extent miss, PROTECTION of the page, RANGE_LOCK; and the range of a scratchpad access. -/
def Obligations.CheckOrder : Prop :=
  ∀ (s : State) (th : Nat) (q : Ask),
    let a := q.addr.toNat
    let core := s.coreOfTh th
    let g := s.gridOfTeam (teamOfTh th)
    let ck := (g.map Grid.ctx).getD 0
    let hit := q.watch && !(((SMap.look s.ctxs ck).getD {}).watchHits a q.width q.isRead q.isWrite).isEmpty
    let locked := q.locks && (q.isRead || q.isWrite) && s.lockHit core ck { space := .glob, lo := a, hi := a + q.width } q.isWrite
    (q.wh = .global →
      (2 ^ 48 ≤ a → s.check th q = .trap 0x06) ∧
      (a < 2 ^ 48 → a % q.align ≠ 0 → s.check th q = .trap 0x05) ∧
      (a < 2 ^ 48 → a % q.align = 0 →
        (hit = true → s.check th q = .trap 0x0D) ∧
        (hit = false → s.windowBad ck a q.width q.isWrite = true → s.check th q = .trap 0x08) ∧
        (hit = false → s.windowBad ck a q.width q.isWrite = false →
          (s.extentAt core a = none → s.check th q = .park a) ∧
          (∀ e1 e2, s.extentAt core a = some e1 → s.extentAt core (a + q.width - 1) = some e2 →
            let may := (!q.isRead || (e1.r && e2.r)) && (!q.isWrite || (e1.w && e2.w))
            (may = false → s.check th q = .trap 0x08) ∧ (may = true → locked = true → s.check th q = .trap 0x09) ∧
            (may = true → locked = false → ∃ x, s.check th q = .ok x ∧ x.th = th ∧ x.space = .glob ∧ x.pa = e1.pa + (a - e1.va) ∧
              x.addr = q.addr ∧ x.data = q.data))))) ∧
    (q.wh = .local_ → (g.map Grid.scratch).getD 0 < a + q.width → s.check th q = .trap 0x06)

/-- R77, R140, R149, R163: the return of a load of one lane, where nothing older of its warp or its core holds it back and no sector it reads is
uncorrectable: its destination registers receive the little-endian bytes it reads, they are no longer pending, the operation is gone, and memory is
unchanged. R150, R151: the head entry of a warp's store queue with one lane, once it may leave the queue: a store to a scratchpad is in the scratchpad
at once; a store within one sector of global memory enters the core's merge point, and memory is unchanged. Of either, the bytes that a higher lane of
the same issue has written already keep that lane's. -/
def Obligations.MemoryReturns : Prop :=
  (∀ (s : State) (id : Nat) (o : MemOp) (l : LaneAcc) (d : RegField), SMap.look s.ops id = some o → o.kind = .load → o.frag = none →
     o.lanes = [l] → o.dst = some d → o.sdst = false → d.toNat + o.regs ≤ 255 → s.dropsReturn o = false →
     l.flt = 0 → l.got1 = none → l.got2 = none →
     (∀ p ∈ l.pieces o.width, s.loadBlocked id o l p false = false ∧ (l.space = .glob → s.badPiece p = false)) →
     let bytes := (l.pieces o.width).flatMap (fun p => (upFrom p.1 p.2).map (s.readByte id o.wk o.core false l.space))
     ∃ t : State, exec (.evLoadReturn id 0xFFFFFFFF 3 false false []) s = .next t ∧
       (∀ k < o.regs, t.vget l.th (d.toNat + k) = BitVec.ofNat 32 (ofLeBytes bytes / 2 ^ (32 * k))) ∧
       (∀ th r, r < 256 → ¬(th = l.th ∧ d.toNat ≤ r ∧ r < d.toNat + o.regs) → t.vget th r = s.vget th r) ∧
       (∀ k < o.regs, SMap.look t.vbusy (vkey l.th (d.toNat + k)) = none) ∧ SMap.look t.ops id = none ∧ t.mem = s.mem ∧ t.scr = s.scr) ∧
  (∀ (s : State) (id : Nat) (o : MemOp) (l : LaneAcc), s.headStore o.wk = some (id, o) → SMap.look s.ops id = some o → s.mayDrain id o = true →
     o.lanes = [l] → l.n1 o.width = o.width →
     ∃ t : State, exec (.evStoreDrain o.wk) s = .next t ∧ SMap.look t.ops id = none ∧ t.mem = s.mem ∧
       (∀ owner, l.space = .scr owner → ∀ a, SMap.read 0 t.scr a =
         if (scrKey owner l.pa ≤ a ∧ a < scrKey owner l.pa + o.width) ∧ l.pa + (a - scrKey owner l.pa) ∉ s.holesOf o l (l.pa, o.width)
         then ((leBytes o.width l.data.toNat)[a - scrKey owner l.pa]?).getD 0
         else SMap.read 0 s.scr a) ∧
       (l.space = .glob → t.scr = s.scr ∧ ∃ e, SMap.look t.pend s.nid = some e ∧ e.pa = l.pa ∧ e.bytes = leBytes o.width l.data.toNat ∧
         e.hole = s.holesOf o l (l.pa, o.width) ∧ e.wk = o.wk ∧ e.core = o.core ∧ e.th = l.th ∧ e.stage = .core))

/-- R150, R151, R236: a merged write that no other one to its bytes precedes, and that touches no open cell: at package scope physical memory
holds its bytes, but for those a higher lane of its issue has written, and every other byte is unchanged; at its cluster's scope memory is unchanged.
R155, R156: a PREF's request is done and its lanes leave its counter; a LINV empties its core's L1 and completes. -/
def Obligations.WritesPerformed : Prop :=
  (∀ (s : State) (id : Nat) (p : Pend), SMap.look s.pend id = some p → s.pendFirst id p = false → s.pendCell p = false →
     (∃ t : State, exec (.evWritePerformed id true false false) s = .next t ∧ SMap.look t.pend id = none ∧
       (∀ a, t.byte a = if (p.pa ≤ a ∧ a < p.pa + p.bytes.length) ∧ a ∉ p.hole then (p.bytes[a - p.pa]?).getD 0 else s.byte a) ∧
       t = { s with pend := t.pend, mem := t.mem, bad := t.bad, heal := t.heal, l2 := t.l2, hintCnt := t.hintCnt }) ∧
     (∃ t : State, exec (.evWritePerformed id false false false) s = .next t ∧ SMap.look t.pend id = some { p with stage := .clus } ∧
       t = { s with pend := t.pend, l2 := t.l2 })) ∧
  (∀ (s : State) (id : Nat) (o : MemOp), SMap.look s.ops id = some o →
     (o.kind = .pref → ∃ t : State, exec (.evWritePerformed id true true false) s = .next t ∧ SMap.look t.ops id = none ∧ t.mem = s.mem ∧ t.v = s.v) ∧
     (o.kind = .linv → ∃ t : State, exec (.evWritePerformed id true true false) s = .next t ∧ SMap.look t.ops id = none ∧
       (∀ e ∈ t.l1, e.1 / 2 ^ 45 ≠ o.core) ∧ t = { s with ops := t.ops, l1 := t.l1, warps := t.warps, l2 := t.l2, hintCnt := t.hintCnt }))

/-- R158: the new memory value of each atomic operation on w-bit values. -/
def Obligations.AtomicValues : Prop :=
  ∀ (w m b : Nat), m < 2 ^ w → b < 2 ^ w →
    aopNew .add w m b = (m + b) % 2 ^ w ∧ aopNew .and w m b = m &&& b ∧ aopNew .or w m b = m ||| b ∧ aopNew .xor w m b = m ^^^ b ∧
    aopNew .exch w m b = b ∧ aopNew .umin w m b = min m b ∧ aopNew .umax w m b = max m b ∧ aopNew .xadd w m b = m ∧
    intOf true w (aopNew .smin w m b) = min (intOf true w m) (intOf true w b) ∧
    intOf true w (aopNew .smax w m b) = max (intOf true w m) (intOf true w b) ∧
    (∀ (o : MemOp) (l : LaneAcc), o.kind = .cas → 8 * o.width = w → l.data.toNat = b →
      laneNew o l m = if m = b then l.data2.toNat % 2 ^ w else m)

/-- R159, R245, R301: a service warp applies a request of one lane to memory: the word at its address becomes the operation's new value, every other
byte stays, and a returning form keeps the old value for its answer; QNT_APPLY does so for a held .qnt atomic. R161: xadd adds into an open cell and
leaves memory as it is. -/
def Obligations.AtomicsPerformed : Prop :=
  (∀ (s : State) (inst c id : Nat) (o : MemOp) (l : LaneAcc), SMap.look s.ops id = some o → (o.kind = .atomic ∨ o.kind = .cas) →
     ¬(o.kind = .atomic ∧ o.aop = .xadd) →
     let applied := fun (t : State) => ∀ a, t.byte a =
       if l.pa ≤ a ∧ a < l.pa + o.width then ((leBytes o.width (laneNew o l (s.memWord l.pa o.width)))[a - l.pa]?).getD 0 else s.byte a
     (s.partsOf inst c = [(id, o, [l])] → o.lanes = [l] → s.requestReady inst c = true → s.requestFirst inst c = false → s.serveFault o l = 0 →
       o.use_ ≠ .qnt →
       ∃ t : State, exec (.evServiceWarpRequest inst c) s = .next t ∧ applied t ∧
         (o.ret = true → (SMap.look t.ops id).map (fun o => o.lanes.map LaneAcc.got1) = some [some (leBytes o.width (s.memWord l.pa o.width))]) ∧
         (o.ret = false → SMap.look t.ops id = none)) ∧
     (o.use_ = .qnt → o.lanes = [l] → l.flt = 0 → l.got1.isSome = true → o.ret = false →
       s.ops.filter (fun e => e.2.inst == o.inst && !e.2.qntLanes.isEmpty) = [(id, o)] →
       (∀ e ∈ s.older id o.wk, e.2.inst ≠ o.inst → ∀ k ∈ e.2.qntLanes, accMeet k e.2.width l o.width = false) →
       ∃ t : State, exec (.evQntApply id) s = .next t ∧ applied t ∧ SMap.look t.ops id = none)) ∧
  (∀ (s : State) (inst c id : Nat) (o : MemOp) (l : LaneAcc) (cell : Cell), SMap.look s.ops id = some o → o.kind = .atomic → o.aop = .xadd →
     s.partsOf inst c = [(id, o, [l])] → o.lanes = [l] → s.requestReady inst c = true → s.requestFirst inst c = false → o.use_ ≠ .qnt →
     o.ret = false → s.cellAt l.pa = some cell →
     ∃ t : State, exec (.evServiceWarpRequest inst c) s = .next t ∧ t.mem = s.mem ∧
       t.cellAt l.pa = some (cell.add ((if o.width = 8 then Fmt.f64 else Fmt.f32).value (l.data.toNat % 2 ^ (8 * o.width)))))

/-- R225, R362: traps of one ordinary warp. Where a handler is set and no thread of the warp is in handler state, the threads enter handler state
together at the handler's address with their own resume points, s61 and s62 are those of the first, and every other register stays; where one is, the
traps are held; a thread with no handler stops and the hard halt of its context begins, with the FAULT record's data. -/
def Obligations.TrapDelivery : Prop :=
  ∀ (s : State) (wk : Nat) (w : Warp) (r : TrapReq) (rs : List TrapReq), SMap.look s.warps wk = some w → wk % 2 = 0 →
    ((r :: rs).map TrapReq.th).Nodup → (∀ q ∈ r :: rs, (SMap.look s.threads q.th).map Thread.wk = some wk) →
    let u := s.deliver (r :: rs)
    ((∀ q ∈ r :: rs, (s.handlerOf q.th).isSome = true) → s.inHandler wk = false → w.held = [] →
      (∀ q ∈ r :: rs, ∃ t, SMap.look u.threads q.th = some t ∧ t.handler = true ∧ t.rpc = q.rpc ∧ some t.pc = s.handlerOf q.th ∧ t.stat = .ready) ∧
      u.sget wk 62 = r.info ∧
      (∃ first, u.sget wk 61 = s61Word r.code w.rq.length first ∧ ∀ k, r.entry = some k → first = k) ∧
      (∀ wk' x, x < 64 → ¬(wk' = wk ∧ (x = 61 ∨ x = 62)) → u.sget wk' x = s.sget wk' x) ∧ movesOn s u) ∧
    ((∀ q ∈ r :: rs, (s.handlerOf q.th).isSome = true) → s.inHandler wk = true →
      (SMap.look u.warps wk).map Warp.held = some (w.held ++ r :: rs) ∧ sameScalars s u ∧
      ∀ q ∈ r :: rs, (SMap.look u.threads q.th).map Thread.stat = some .held) ∧
    (rs = [] → s.handlerOf r.th = none → ∀ (g : Grid) (tm : Team) (c : Ctx) (t : Thread), s.gridOfTeam (teamOfTh r.th) = some g →
      SMap.look s.teams (teamOfTh r.th) = some tm → SMap.look s.ctxs g.ctx = some c → c.fault = none → SMap.look s.threads r.th = some t →
      (SMap.look u.threads r.th).map Thread.stat = some .held ∧
      (SMap.look u.ctxs g.ctx).map Ctx.halting = some (some 4) ∧
      (∃ f, (SMap.look u.ctxs g.ctx).bind Ctx.fault = some f ∧ f.code = r.code ∧ f.info = r.info ∧ f.lane = t.lane ∧ f.team = tm.idx) ∧
      sameScalars s u)

/-- R224: TRAP raises SOFTWARE in every active thread, each of which resumes after the TRAP, with SEL as the code of its frame (what s62 is to hold);
D, A and YMOD are 0, and `TRAP 0x42` is the word R224 gives. -/
def Obligations.SoftwareTrap : Prop :=
  (∀ (f : Yf) (s : State) (gid : Nat) (g : Group), (Instr.trap f).wf = true → s.clear (.trap f) f.g gid g = true →
    exec (.trap f) s = .next (s.finish gid [] ((s.active g f.g).map (fun th =>
      { th := th, code := 0x0F, info := f.sel.setWidth 64, rpc := g.pc + 8, entry := none })))) ∧
  (∀ f : Yf, (Instr.trap f).wf = true → f.d = 0 ∧ f.a = 0 ∧ f.ymod = 0) ∧
  decodeWord 0xF900000004200000 = .ok (.trap ⟨.always, 0, 0, 0x42, 0⟩)

/-- R197, R229: RTR of active threads of one warp whose queue is empty: each leaves handler state and goes on at its resume point, at a clause header
as a ready thread there, and inside a clause in a new issue group at that word, whose header's waits count as met. A thread that is not in handler
state takes PRIVILEGE. R197, R226, R228: in an ordinary grid, with every active thread in handler state, RQRD reads a field of the entry its index
names, 0 where there is none; RQWR sets a field of that entry, so that reading it back gives what R228 says; outside handler state both raise
PRIVILEGE. -/
def Obligations.HandlerForms : Prop :=
  (∀ (f : Ct),
     let handled := fun (s : State) (g : Group) (gr : Grid) =>
       s.gridOfTeam g.team = some gr ∧ ∃ wk w, s.warpsOf (s.active g f.g) = [wk] ∧ SMap.look s.warps wk = some w ∧ w.rq = [] ∧ (w.wtimer = 0 ∨ s.wtimerOf wk ≠ 0) ∧ g.sleepers = [] ∧
         ∀ th ∈ s.active g f.g, ∃ t, SMap.look s.threads th = some t ∧ t.handler = true ∧ t.msgOvf = false ∧ t.timer = false ∧ t.slp = none
     (∀ gr, Acts (.rtr f) f.g
       (fun s _ g => handled s g gr ∧ ∀ th ∈ s.active g f.g, s.isHeader gr.code (s.rpcOf th) = true)
       (fun s _ g t => sameScalars s t ∧ sameLanes s t ∧
         ∀ th ∈ s.active g f.g, ∃ u, SMap.look t.threads th = some u ∧ u.handler = false ∧ u.pc = s.rpcOf th ∧ u.stat = .ready)) ∧
     (∀ gr h w k, Acts (.rtr f) f.g
       (fun s _ g => handled s g gr ∧ ∃ th, s.active g f.g = [th] ∧ s.isHeader gr.code (s.rpcOf th) = false ∧
         s.clauseOf gr.code (s.rpcOf th) = some (h, w, k) ∧
         ∃ c, s.decodeClause gr (((SMap.look s.threads th).map Thread.seg).getD 0) false h = .ok c)
       (fun s _ g t => sameScalars s t ∧ sameLanes s t ∧
         ∀ th ∈ s.active g f.g, ∃ u n new, SMap.look t.threads th = some u ∧ u.handler = false ∧ u.stat = .grouped n ∧
           SMap.look t.groups n = some new ∧ new.threads = [th] ∧ new.head = h ∧ new.idx = k ∧ new.waited = true)) ∧
     (∀ (s : State) (gid : Nat) (g : Group), (Instr.rtr f).wf = true → s.clear (.rtr f) f.g gid g = true →
       (∀ th ∈ s.active g f.g, (SMap.look s.threads th).map Thread.handler = some false) →
       exec (.rtr f) s = .next (s.finish gid [] ((s.active g f.g).map (fun th => trapAt g th 0x04))))) ∧
  (∀ f : Yf,
     let handled := fun (s : State) (_ : Nat) (g : Group) => (∃ gr, s.gridOfTeam g.team = some gr ∧ gr.travel = false) ∧
       ∀ th ∈ s.active g f.g, (SMap.look s.threads th).map Thread.handler = some true
     let outside := fun (i : Instr) => ∀ (s : State) (gid : Nat) (g : Group), i.wf = true → s.clear i f.g gid g = true →
       (∀ th ∈ s.active g f.g, (SMap.look s.threads th).map Thread.handler = some false) →
       exec i s = .next (s.finish gid [] ((s.active g f.g).map (fun th => trapAt g th 0x04)))
     let ix := fun (s : State) (wk : Nat) => (s.sget wk (f.ymod.setWidth 8).toNat).toNat
     let entry := fun (s : State) (wk : Nat) => (s.rqOf wk)[ix s wk % 32]?
     let lane := fun (s : State) (wk : Nat) => ix s wk / 256 % 32
     Acts (.rqrd f) f.g handled (fun s _ g t =>
       (∀ wk ∈ s.warpsOf (s.active g f.g), t.sget wk f.d.toNat = if f.d = 63 then 0 else
         match entry s wk with | some e => s.rqField wk f.sel.toNat (lane s wk) e | none => 0) ∧
       (∀ wk r, r < 64 → ¬(wk ∈ s.warpsOf (s.active g f.g) ∧ r = f.d.toNat) → t.sget wk r = s.sget wk r) ∧ onlyScalars s t) ∧
     Acts (.rqwr f) f.g handled (fun s _ g t =>
       (∀ wk ∈ s.warpsOf (s.active g f.g), ∀ e, entry s wk = some e →
         ∃ e', entry t wk = some e' ∧ (f.sel.toNat ≠ 0x20 → (t.rqField wk f.sel.toNat (lane s wk) e') =
           match f.sel.toNat with
           | 0x00 => { e with drop := (s.sget wk f.a.toNat).getLsbD 20 }.hdr
           | 0x01 => (e.mask &&& lo32 (s.sget wk f.a.toNat)).setWidth 64
           | 0x03 | 0x10 | 0x11 | 0x12 => s.sget wk f.a.toNat
           | _ => s.rqField wk f.sel.toNat (lane s wk) e)) ∧
       (f.sel.toNat = 0x20 → SMap.sorted s.threads = true → ∀ wk ∈ s.warpsOf (s.active g f.g), (entry s wk).isSome = true →
         ∀ th, s.threadAt wk (lane s wk) = some th → (SMap.look t.threads th).map Thread.rpc = some (s.sget wk f.a.toNat)) ∧
       (∀ wk, wk ∉ s.warpsOf (s.active g f.g) → SMap.look t.warps wk = SMap.look s.warps wk) ∧
       t = { s with warps := t.warps, threads := t.threads }) ∧
     outside (.rqrd f) ∧ outside (.rqwr f))

/-- R153, R154: STCMP and LDEXP of a warp gathered in one group. Where every element passes its checks, element k of the operation is the k-th active
lane's, at base + k × width, and STCMP writes the number of elements into S[D]; where one fails, the elements before it are issued and the lanes from
it on trap with one entry of KIND 5, which holds the base and that element's index. -/
def Obligations.CompactForms : Prop :=
  ∀ f : Me,
    let n := szBytes f.sz
    let base := fun (s : State) (wk : Nat) => s.sget wk f.a.toNat + f.ofs.signExtend 64
    let ask := fun (store : Bool) (s : State) (wk th k : Nat) =>
      ({ wh := .global, addr := base s wk + BitVec.ofNat 64 (k * n), width := n, align := 1, isRead := !store, isWrite := store,
         data := if store then s.laneData th f.sz f.b else 0 } : Ask)
    let form := fun (i : Instr) (store : Bool) =>
      ∀ (s : State) (gid : Nat) (g : Group) (wk : Nat), i.wf = true → s.clear i f.g gid g = true → s.gatheredFor g wk (wOf f.w) →
        (store = true → s.queueLen wk < 32) →
        let who := (s.inOrder g f.g).zip (List.range 32)
        who ≠ [] →
        (∀ acc : Nat → LaneAcc,
          (∀ p ∈ who, s.check p.1 (ask store s wk p.1 p.2) = .ok (acc p.1) ∧
            (f.chk = true → (s.boundOf wk).act = 2 → (boundApply (s.boundOf wk) f.sz (acc p.1).data).1 = 0)) →
          ∃ (t : State) (id : Nat) (o : MemOp), exec i s = .next (t.finish gid [] []) ∧ SMap.look t.ops id = some o ∧ s.nid ≤ id ∧ o.wk = wk ∧
            o.kind = (if store then .store else .load) ∧ o.width = n ∧ o.dst = (if store then none else some f.d) ∧
            o.lanes = who.map (fun p => if store && f.chk then
              { acc p.1 with data := (boundApply (s.boundOf wk) f.sz (acc p.1).data).2 } else acc p.1) ∧
            (store = true → t.sget wk f.d.toNat = if f.d = 63 then 0 else BitVec.ofNat 64 who.length) ∧
            (∀ wk' r, r < 64 → ¬(store = true ∧ wk' = wk ∧ r = f.d.toNat) → t.sget wk' r = s.sget wk' r) ∧ sameLanes s t ∧ sameThreads s t ∧
            t.mem = s.mem ∧ t.scr = s.scr) ∧
        (f.chk = false → ∀ (acc : Nat → LaneAcc) (p q : List (Nat × Nat)) (x : Nat × Nat) (code : Nat), who = p ++ x :: q →
          (∀ y ∈ p, s.check y.1 (ask store s wk y.1 y.2) = .ok (acc y.1)) → s.check x.1 (ask store s wk x.1 x.2) = .trap code →
          ∃ (t : State) (reqs : List TrapReq) (e : REntry), exec i s = .next (t.finish gid [] reqs) ∧
            reqs.map TrapReq.th = (x :: q).map Prod.fst ∧ (∀ r ∈ reqs, r.code = code ∧ r.rpc = g.pc + 8) ∧
            (SMap.look t.warps wk).map Warp.rq = (SMap.look s.warps wk).map (fun w => w.rq ++ [e]) ∧ e.kind = 5 ∧ e.trap = code ∧
            e.idx = p.length ∧ e.aux = base s wk ∧ e.mask = maskOf ((x :: q).map (fun y => laneOfTh y.1)))
    form (.stcmp f) true ∧ form (.ldexp f) false

/-- R168 to R170: FLD and FST of a warp gathered in one group, where the panel passes the checks of the lowest lane. FLD issues the load of every
lane's words, and the registers of all 32 lanes are pending; FST issues the store of every lane's words, clamped where CHK and the bound register say
so. R38, R96, R368: an uncorrectable error in a fragment register stops every member of an FST with DATA_ERROR; where no lane's guard is true, neither
form performs anything. -/
def Obligations.FragmentForms : Prop :=
  ∀ (f : En) (s : State) (gid : Nat) (g : Group) (wk : Nat) (acc : Nat → LaneAcc), s.gatheredFor g wk (fragW f.emod) →
    let ask := fun (write : Bool) =>
      ({ wh := .local_, addr := s.sget wk f.p.toNat, width := fragBytes f.emod, align := 32, isRead := !write, isWrite := write } : Ask)
    let el := fun l => fragElems (fragRole f.emod) l
    let fmt : Fmt := if fragRole f.emod = 2 then .f64 else .f32
    let raw := s.fragData f.emod wk f.x.toNat
    let chk := f.emod.getLsbD 4
    ((Instr.fld f).wf = true → s.clear (.fld f) f.g gid g = true → s.active g f.g ≠ [] → (∀ th ∈ g.threads, s.check th (ask false) = .ok (acc th)) →
      ∃ (t : State) (id low : Nat) (o : MemOp), exec (.fld f) s = .next (t.finish gid [] []) ∧ lowestOf g low ∧ SMap.look t.ops id = some o ∧
        o.kind = .load ∧ o.wk = wk ∧ o.frag = some f.emod ∧ o.dst = some f.d ∧ o.lanes = fragReads f.emod wk (acc low) ∧
        (∀ l < 32, ∀ k < fragRegs f.emod, SMap.look t.vbusy (vkey (warpTh wk l) (f.d.toNat + k)) = some id) ∧ sameThreads s t ∧
        t = { s with ops := t.ops, nid := t.nid, vbusy := t.vbusy, warps := t.warps, threads := t.threads, rdvs := t.rdvs }) ∧
    ((Instr.fst f).wf = true → s.clear (.fst f) f.g gid g = true → s.active g f.g ≠ [] → (∀ th ∈ g.threads, s.check th (ask true) = .ok (acc th)) →
      s.queueLen wk < 32 → s.fragBad f wk = false → (chk = true → (s.boundOf wk).act = 2 → ∀ ws ∈ raw, (boundList (s.boundOf wk) fmt (el ws)).1 = 0) →
      ∃ (t : State) (id low : Nat) (o : MemOp), exec (.fst f) s = .next (t.finish gid [] []) ∧ lowestOf g low ∧ SMap.look t.ops id = some o ∧
        o.kind = .store ∧ o.wk = wk ∧ o.frag = some f.emod ∧
        o.lanes = s.fragWrites f.emod wk f.x.toNat (acc low) (if chk then raw.map (fun ws =>
          fragWords (fragRole f.emod) (boundList (s.boundOf wk) fmt (el ws)).2) else raw) ∧ sameThreads s t ∧
        t = { s with ops := t.ops, nid := t.nid, warps := t.warps, ctxs := t.ctxs, threads := t.threads, rdvs := t.rdvs }) ∧
    ((Instr.fst f).wf = true → s.clear (.fst f) f.g gid g = true → s.active g f.g ≠ [] → s.queueLen wk < 32 → s.fragBad f wk = true →
      ∃ t : State, exec (.fst f) s = .next (t.finish gid [] (g.threads.map (fun th => trapAt g th 0x10))) ∧ sameThreads s t ∧
        t = { s with nid := t.nid, warps := t.warps, threads := t.threads, rdvs := t.rdvs }) ∧
    (∀ i ∈ [Instr.fld f, Instr.fst f], i.wf = true → s.clear i f.g gid g = true → s.active g f.g = [] → s.queueLen wk < 32 →
      ∃ t : State, exec i s = .next (t.finish gid [] []) ∧ sameThreads s t ∧
        t = { s with nid := t.nid, warps := t.warps, threads := t.threads, rdvs := t.rdvs })

/-- R166, R171, R174, R176, R179: MMA of one warp whose parameter block can be read. A valid block, with an entry of the cluster's table free and no
result outstanding in D, makes a pending operation: its token is pending, the D registers are engine-owned, and the warp's sequence number moves on;
an invalid one completes at once with BADP. -/
def Obligations.MatrixIssue : Prop :=
  ∀ (f : En) (s : State) (gid : Nat) (g : Group) (wk th : Nat) (rest : List Nat) (a : LaneAcc) (gr : Grid) (w : Warp),
    (Instr.mma f).wf = true → s.clear (.mma f) f.g gid g = true → s.active g f.g = th :: rest → s.warpsOf (th :: rest) = [wk] →
    s.gridOfTeam (teamOfTh th) = some gr → SMap.look s.warps wk = some w →
    s.check th { wh := .local_, addr := s.sget wk f.p.toNat, width := 64, align := 64, isRead := true, isWrite := false, watch := false } = .ok a →
    s.blockHeld wk = false →
    let b := s.readBlock wk g.core a 64
    (∀ p, mmaPar gr.nv b = some p → s.tableUse (g.core / 4) < 16 → (∀ k ∈ rangeKeys wk p.dRange, SMap.look s.vbusy k = none) →
      ∃ (t : State) (o : EngOp), exec (.mma f) s = .next (t.finish gid [] []) ∧ SMap.look t.eng s.nid = some o ∧ o.kind = 2 ∧ o.wk = wk ∧
        o.th = th ∧ o.tok = f.t ∧ o.seq = w.seq ∧ o.blk = b ∧ o.begun = false ∧
        (f.t ≠ 63 → SMap.look t.sbusy (skey wk f.t.toNat) = some s.nid) ∧
        (∀ k ∈ rangeKeys wk p.dRange, s.nid ∈ (SMap.look t.vown k).getD []) ∧ SMap.look t.warps wk = some { w with seq := w.seq + 1 } ∧
        sameThreads s t ∧ t = { s with eng := t.eng, vown := t.vown, vread := t.vread, sbusy := t.sbusy, warps := t.warps, nid := t.nid,
                                       threads := t.threads }) ∧
    (mmaPar gr.nv b = none →
      ∃ t : State, exec (.mma f) s = .next (t.finish gid [] []) ∧
        t.sget wk f.t.toNat = (if f.t = 63 then 0 else completionWord w.seq 0 0 2 false false true) ∧
        (∀ wk' r, r < 64 → ¬(wk' = wk ∧ r = f.t.toNat) → t.sget wk' r = s.sget wk' r) ∧ SMap.look t.warps wk = some { w with seq := w.seq + 1 } ∧
        sameThreads s t ∧ t = { s with sr := t.sr, armed := t.armed, sbad := t.sbad, sbusy := t.sbusy, warps := t.warps, threads := t.threads })

/-- R184, R187, R189: the copy forms of one warp whose descriptor can be read. One that passes the checks of R189, with entries of the range-lock
table and of the reservation table free, registers its hulls and makes a pending operation; one that is invalid completes at once with BADP; one that
fails a check raises its trap before any effect. -/
def Obligations.CopyIssue : Prop :=
  ∀ (f : En),
    let form := fun (i : Instr) (kind : Nat) =>
      ∀ (s : State) (gid : Nat) (g : Group) (wk th : Nat) (rest : List Nat) (a : LaneAcc) (gr : Grid) (w : Warp),
        i.wf = true → s.clear i f.g gid g = true → s.active g f.g = th :: rest → s.warpsOf (th :: rest) = [wk] →
        s.gridOfTeam (teamOfTh th) = some gr → SMap.look s.warps wk = some w →
        s.check th { wh := .local_, addr := s.sget wk f.p.toNat, width := 128, align := 64, isRead := true, isWrite := false, watch := false } = .ok a →
        s.blockHeld wk = false →
        let b := s.readBlock wk g.core a 128
        let d := descOf kind (if kind = 8 then s.sget wk f.x.toNat else 0) b
        (∀ c exts src dst, d = some c → s.copyCheck th g.core c = .ok exts src dst → (s.cluster (g.core / 4)).locks.length < 32 →
          s.tableUse (g.core / 4) < 16 →
          ∃ (t : State) (id : Nat) (o : EngOp), exec i s = .next (t.finish gid [] []) ∧ SMap.look t.eng id = some o ∧ o.kind = kind ∧
            o.wk = wk ∧ o.th = th ∧ o.tok = f.t ∧ o.seq = w.seq ∧ o.blk = b ∧ o.exts = exts ∧ o.begun = false ∧
            (f.t ≠ 63 → SMap.look t.sbusy (skey wk f.t.toNat) = some id) ∧
            (t.cluster (g.core / 4)).locks = (s.cluster (g.core / 4)).locks ++ [{ op := id, ctx := gr.ctx, src := src, dst := dst }] ∧
            (SMap.look t.warps wk).map Warp.seq = some (w.seq + 1) ∧ sameScalars s t ∧ sameLanes s t ∧ sameThreads s t ∧ t.mem = s.mem ∧
            t.scr = s.scr) ∧
        ((d = none ∨ ∃ c, d = some c ∧ s.copyCheck th g.core c = .invalid) →
          ∃ t : State, exec i s = .next (t.finish gid [] []) ∧
            t.sget wk f.t.toNat = (if f.t = 63 then 0 else completionWord w.seq 0 0 kind false false true) ∧
            SMap.look t.warps wk = some { w with seq := w.seq + 1 } ∧ sameThreads s t ∧
            t = { s with sr := t.sr, armed := t.armed, sbad := t.sbad, sbusy := t.sbusy, warps := t.warps, threads := t.threads }) ∧
        (∀ c code, d = some c → s.copyCheck th g.core c = .trap code →
          ∃ t : State, exec i s = .next (t.finish gid [] [trapAt g th code]) ∧ sameThreads s t ∧ t = { s with threads := t.threads })
    form (.cpyin f) 4 ∧ form (.cpyst f) 5 ∧ form (.cpyx f) 6 ∧ form (.cpyg f) 7 ∧ form (.cpyr f) 8

/-- R173, R183, R191, R192: MSTAT reads the suspect and pass counters and the engines' use, and clears a counter where told; BNDSET, BNDGET and BNDSEL
set, read and select a bound register of the context; TWAIT copies a token that is not pending; TPOLL reads one without waiting, 0 while it is
pending; in a DET context TPOLL, and MSTAT but for .susp, raise DETERMINISM. -/
def Obligations.EngineRegisters : Prop :=
  ∀ f : En,
    let act := fun (s : State) (g : Group) => s.warpsOf (s.active g f.g)
    let k := f.x.toNat % 16
    let sel := bitsOf f.emod 0 2
    let ctx := fun (s : State) (g : Group) (gr : Grid) (c : Ctx) => s.gridOfTeam g.team = some gr ∧ SMap.look s.ctxs gr.ctx = some c
    let gives := fun (s : State) (g : Group) (t : State) (x : Nat → W64) =>
      (∀ wk ∈ act s g, t.sget wk f.d.toNat = if f.d = 63 then 0 else x wk) ∧
      (∀ wk r, r < 64 → ¬(wk ∈ act s g ∧ r = f.d.toNat) → t.sget wk r = s.sget wk r)
    let uses := fun (s : State) (g : Group) (mma : Bool) => (s.eng.filter (fun e => e.2.core / 4 == g.core / 4 && (e.2.kind == 2) == mma)).length
    (∀ gr c, Acts (.mstat f) f.g
      (fun s _ g => ctx s g gr c ∧ (s.curCtx.det = true → sel = 0) ∧ (f.emod.getLsbD 2 = true → (act s g).length = 1))
      (fun s _ g t =>
        gives s g t (fun _ => match sel with
          | 0 => c.suspects.setWidth 64
          | 1 => c.passes
          | _ => BitVec.ofNat 64 (uses s g true + 256 * uses s g false)) ∧
        SMap.look t.ctxs gr.ctx = some (if f.emod.getLsbD 2 then (if sel = 0 then { c with suspects := 0 } else { c with passes := 0 }) else c) ∧
        t = { s with sr := t.sr, armed := t.armed, sbad := t.sbad, ctxs := t.ctxs })) ∧
    (∀ gr c wk, Acts (.bndset f) f.g (fun s _ g => ctx s g gr c ∧ act s g = [wk]) (fun s _ _ t =>
      let v := s.sget wk f.p.toNat
      (∃ c', SMap.look t.ctxs gr.ctx = some c' ∧
        c'.bound k = { low := lo32 v, high := hi32 v, act := f.x.toNat / 16 % 4
                       count := if f.emod.getLsbD 0 then 0 else (c.bound k).count
                       sticky := if f.emod.getLsbD 0 then false else (c.bound k).sticky } ∧
        (∀ j, j ≠ k → c'.bound j = c.bound j) ∧ c' = { c with bounds := c'.bounds }) ∧ t = { s with ctxs := t.ctxs })) ∧
    (∀ gr c wk, Acts (.bndget f) f.g (fun s _ g => ctx s g gr c ∧ act s g = [wk]) (fun s _ g t =>
      gives s g t (fun _ => if f.emod.getLsbD 0 then
          BitVec.ofNat 64 ((c.bound k).count.toNat + 2 ^ 32 * (c.bound k).sticky.toNat + 2 ^ 33 * (c.bound k).act)
        else pair (c.bound k).low (c.bound k).high) ∧
      (∃ c', SMap.look t.ctxs gr.ctx = some c' ∧ (∀ j, j ≠ k → c'.bound j = c.bound j) ∧
        c'.bound k = if f.emod.getLsbD 0 && f.emod.getLsbD 1 then { c.bound k with count := 0, sticky := false } else c.bound k) ∧
      t = { s with sr := t.sr, armed := t.armed, sbad := t.sbad, ctxs := t.ctxs })) ∧
    Acts (.bndsel f) f.g always (fun s _ g t =>
      (∀ wk, SMap.look t.warps wk = (SMap.look s.warps wk).map (fun w => if wk ∈ act s g then { w with bsel := k } else w)) ∧
      t = { s with warps := t.warps }) ∧
    SetsScalar (.twait f) f.g f.d (fun s wk => s.sget wk f.t.toNat) ∧
    Acts (.tpoll f) f.g
      (fun s _ g => s.curCtx.det = false ∧ ∀ wk ∈ act s g, ∀ o, SMap.look s.sbusy (skey wk f.t.toNat) = some o → SMap.look s.ops o = none)
      (fun s _ g t => gives s g t (fun wk =>
        if (SMap.look s.sbusy (skey wk f.t.toNat)).isSome then 0 else s.sget wk f.t.toNat) ∧ onlyScalars s t) ∧
    TrapsAll (.tpoll f) f.g 0x11 (fun s _ _ => s.curCtx.det = true) ∧
    TrapsAll (.mstat f) f.g 0x11 (fun s _ _ => s.curCtx.det = true ∧ sel ≠ 0)

/-- R198 to R202: arrivals of threads at one barrier, none of which has arrived in its incomplete phase, with the accesses their release covers
performed. Below the expected count they are counted; where they make it up the phase completes. BARARV writes the phase each arrived in; BAR goes on
where the phase completes and waits otherwise; BARWT goes on once the phase of its register has completed, and waits otherwise; BARQ reads the phases
arrived in or the expected count; at grid level in a grid neither co-resident nor travelling the forms raise PRIVILEGE. -/
def Obligations.Barriers : Prop :=
  ∀ f : Yf,
    let level := barLevel f
    let id := f.sel.toNat
    let act := fun (s : State) (g : Group) => s.active g f.g
    let total := fun (s : State) (g : Group) (k : Nat) (count : W64) =>
      (s.barAt k).arrived.length + (act s g).length ≤
        (if (s.barAt k).arrived = [] then (if count = 0 then s.barMembers k else count.toNat) else s.barExpected k)
    let whole := fun (s : State) (g : Group) (k : Nat) (count : W64) =>
      (s.barAt k).arrived.length + (act s g).length =
        (if (s.barAt k).arrived = [] then (if count = 0 then s.barMembers k else count.toNat) else s.barExpected k)
    let arriving := fun (s : State) (g : Group) (k : Nat) (count : W64) =>
      s.barDenied g.team level = false ∧ act s g ≠ [] ∧ total s g k count ∧ SMap.sorted s.threads = true ∧
      ∀ th ∈ act s g, s.barKeyOf level id th = k ∧ th ∉ (s.barAt k).arrived ∧ s.arrivedAt th g.pc = none ∧
        s.sget (s.wkOf th) f.a.toNat = count ∧ s.relReady s.nid (s.wkOf th) (s.coreOfTh th) (barScope level) = true
    let counted := fun (s : State) (g : Group) (k : Nat) (count : W64) (t : State) =>
      let b := s.barAt k
      let b' := t.barAt k
      (whole s g k count → b'.phase = b.phase + 1 ∧ b'.arrived = [] ∧ b'.fixed = none) ∧
      (¬ whole s g k count → b'.phase = b.phase ∧ b'.arrived = b.arrived ++ act s g ∧
        b'.fixed = if b.arrived = [] then (if count = 0 then none else some count) else b.fixed) ∧
      (∀ th ∈ act s g, SMap.look b'.counts th = some ((SMap.look b.counts th).getD 0 + 1)) ∧
      t = { s with bars := t.bars, threads := t.threads, v := t.v, vbad := t.vbad, clusters := t.clusters, slewOfs := t.slewOfs }
    let denied := fun (i : Instr) => ∀ (s : State) (gid : Nat) (g : Group), i.wf = true → s.clear i f.g gid g = true →
      s.barDenied g.team level = true → exec i s = .next (s.finish gid [] ((act s g).map (fun th => trapAt g th 0x04)))
    (∀ k count, Acts (.bararv f) f.g (fun s _ g => arriving s g k count) (fun s _ g t =>
      counted s g k count t ∧ (∀ th ∈ act s g, t.vget th f.d.toNat = if f.d = 255 then 0 else (s.barAt k).phase) ∧
      (∀ th r, r < 256 → ¬(th ∈ act s g ∧ r = f.d.toNat) → t.vget th r = s.vget th r))) ∧
    (∀ k count, Acts (.bar f) f.g
      (fun s _ g => arriving s g k count ∧ whole s g k count ∧ (level = 3 → ∀ th ∈ act s g, (s.cluster (s.coreOfTh th / 4)).slewed = none ∧
        ∀ gr, SMap.look s.grids (k / 64) = some gr → s.slewRank (gr.ctx / 8) (s.coreOfTh th / 4) < 32))
      (fun s _ g t => counted s g k count t ∧ sameLanes s t)) ∧
    (∀ (k : Nat) (count : W64) (s : State) (gid : Nat) (g : Group), (Instr.bar f).wf = true → s.clear (.bar f) f.g gid g = true →
      arriving s g k count → ¬ whole s g k count →
      ∃ t : State, exec (.bar f) s = .next (t.waitsAt gid .barrier) ∧
        counted s g k count t ∧ sameLanes s t) ∧
    Acts (.barwt f) f.g
      (fun s _ g => s.barDenied g.team level = false ∧ ∀ th ∈ act s g, s.barOver level id th (s.vget th f.a.toNat) = true)
      (fun s _ _ t => t = { s with threads := t.threads }) ∧
    (∀ (s : State) (gid : Nat) (g : Group), (Instr.barwt f).wf = true → s.clear (.barwt f) f.g gid g = true →
      s.barDenied g.team level = false → (∃ th ∈ act s g, s.barOver level id th (s.vget th f.a.toNat) = false) →
      exec (.barwt f) s = .next (s.waitsAt gid .barrier)) ∧
    SetsLane (.barq f) f.g false f.d (fun s th =>
      if f.ymod.getLsbD 2 then s.barExpected (s.barKeyOf level id th) else ((SMap.look (s.barAt (s.barKeyOf level id th)).counts th).getD 0).toNat) ∧
    denied (.bararv f) ∧ denied (.bar f) ∧ denied (.barwt f)

/-- R203, R206: FORK by a team's leader below depth 10, whose record can be read and whose older accesses are performed, makes its token pending and
its team expects one child more; at depth 10 it raises DEPTH, and a thread that is not the leader PRIVILEGE. FJOIN by the last of a team's threads
goes on where no child is outstanding, and waits while another thread of the team has yet to issue it. -/
def Obligations.NestedGrids : Prop :=
  (∀ (f : En) (s : State) (gid : Nat) (g : Group), (Instr.fork f).wf = true → s.clear (.fork f) f.g gid g = true →
    (∀ (th : Nat) (gr : Grid) (tm : Team), s.active g f.g = [th] → tidOf th = 0 → s.gridOfTeam g.team = some gr →
      SMap.look s.teams g.team = some tm →
      (∀ a, gr.depth ≠ 10 →
        s.check th ⟨.global, s.sget (s.wkOf th) f.p.toNat, 64, 64, true, false, 0, 0, false, true⟩ = .ok a → s.relReady s.nid (s.wkOf th) g.core .pkg = true →
        ∃ t : State, exec (.fork f) s = .next (t.finish gid [] []) ∧
          SMap.look t.forks s.nid = some { wk := s.wkOf th, tok := f.t, addr := s.sget (s.wkOf th) f.p.toNat } ∧
          (f.t ≠ 63 → SMap.look t.sbusy (skey (s.wkOf th) f.t.toNat) = some s.nid) ∧
          SMap.look t.teams g.team = some { tm with children := tm.children + 1 } ∧
          t = { s with nid := s.nid + 1, forks := t.forks, sbusy := t.sbusy, teams := t.teams }) ∧
      (gr.depth = 10 → exec (.fork f) s = .next (s.finish gid [] [trapAt g th 0x13]))) ∧
    ((∀ th ∈ s.active g f.g, tidOf th ≠ 0) →
      exec (.fork f) s = .next (s.finish gid [] ((s.active g f.g).map (fun th => trapAt g th 0x04))))) ∧
  (∀ (f : Yf) (s : State) (gid : Nat) (g : Group) (tm : Team), (Instr.fjoin f).wf = true → s.clear (.fjoin f) f.g gid g = true →
    SMap.look s.teams g.team = some tm → tm.at_ = .placed → tm.fjoined = [] → s.active g f.g ≠ [] → s.active g f.g = g.threads →
    ((∀ e ∈ s.threads, teamOfTh e.1 = g.team → e.2.stat = .exited ∨ e.1 ∈ s.active g f.g) → tm.children = 0 →
      ∃ t : State, exec (.fjoin f) s = .next (t.finish gid [] []) ∧ sameThreads s t ∧ (∀ tk, SMap.look t.teams tk = SMap.look s.teams tk) ∧
        t = { s with teams := t.teams, threads := t.threads }) ∧
    ((∃ e ∈ s.threads, teamOfTh e.1 = g.team ∧ e.2.stat ≠ .exited ∧ e.1 ∉ s.active g f.g) →
      ∃ t : State, exec (.fjoin f) s = .next (t.waitsAt gid .join) ∧
        SMap.look t.teams g.team = some { tm with fjoined := s.active g f.g } ∧ t = { s with teams := t.teams }))

/-- R208, R209, R233: the work deque of a core, for a form of one warp. DQPUSH puts a word that is not 0 on the bottom of a deque with room and
answers 1, 0 where the deque is full, 2 for the word 0; DQPOP takes the bottom word, DQSTEAL the top word of a core of the partition that the context
holds; 0 where there is none. A word taken while an older access of the context is not performed at .pkg scope leaves an acquire that waits for it
(assumption 23). None of them stalls. In a DET context DQSTEAL raises DETERMINISM. R197, R221, R325: in resident mode, MBRD of one warp takes the word of a
full inbound mailbox and waits at an empty one; MBWR fills an empty outbound mailbox, where the event ring has room and the warp's older accesses are
performed, and waits otherwise; outside resident mode both raise PRIVILEGE. -/
def Obligations.QueueForms : Prop :=
  (∀ (f : Sr) (wk : Nat),
     let one := fun (s : State) (g : Group) => s.warpsOf (s.active g f.g) = [wk]
     let gives := fun (s t : State) (x : W64) => t.sget wk f.d.toNat = (if f.d = 63 then 0 else x) ∧
       (∀ wk' r, r < 64 → ¬(wk' = wk ∧ r = f.d.toNat) → t.sget wk' r = s.sget wk' r) ∧
       t = { s with sr := t.sr, armed := t.armed, sbad := t.sbad, cores := t.cores }
     let others := fun (s t : State) (c : Nat) => ∀ c', c' ≠ c → t.coreOf c' = s.coreOf c'
     let takes := fun (s t : State) (x : W64) => t.sget wk f.d.toNat = (if f.d = 63 then 0 else x) ∧
       (∀ wk' r, r < 64 → ¬(wk' = wk ∧ r = f.d.toNat) → t.sget wk' r = s.sget wk' r) ∧
       (x = 0 ∨ s.wideBusy s.nid wk = false → t.ops = s.ops ∧ t.nid = s.nid) ∧
       (x ≠ 0 → s.wideBusy s.nid wk = true → ∃ o, SMap.look t.ops s.nid = some o ∧ o.kind = .fence ∧ o.wk = wk ∧ o.wide = true) ∧
       t = { s with sr := t.sr, armed := t.armed, sbad := t.sbad, cores := t.cores, ops := t.ops, nid := t.nid, extUse := t.extUse }
     Acts (.dqpush f) f.g (fun s _ g => one s g) (fun s _ g t =>
       let v := s.sget wk f.a.toNat
       let d := (s.coreOf g.core).deque
       gives s t (if v = 0 then 2 else if 256 ≤ d.length then 0 else 1) ∧
       t.coreOf g.core = { s.coreOf g.core with deque := if v ≠ 0 ∧ d.length < 256 then d ++ [v] else d } ∧ others s t g.core) ∧
     Acts (.dqpop f) f.g (fun s _ g => one s g) (fun s _ g t =>
       let d := (s.coreOf g.core).deque
       takes s t (d.getLast?.getD 0) ∧ t.coreOf g.core = { s.coreOf g.core with deque := d.dropLast } ∧ others s t g.core) ∧
     Acts (.dqsteal f) f.g (fun s _ g => one s g ∧ s.curCtx.det = false) (fun s _ g t =>
       let c := (s.sget wk f.a.toNat).toNat % 4096
       let ok := s.partHolds (s.partOfTeam g.team) (c / 4) = true ∧ (s.coreOf c).ctx = (s.gridOfTeam g.team).map Grid.ctx
       (ok → takes s t ((s.coreOf c).deque.head?.getD 0) ∧ t.coreOf c = { s.coreOf c with deque := (s.coreOf c).deque.drop 1 } ∧ others s t c) ∧
       (¬ ok → takes s t 0 ∧ t.cores = s.cores)) ∧
     TrapsAll (.dqsteal f) f.g 0x11 (fun s _ _ => s.curCtx.det = true)) ∧
  (∀ (f : Yf) (wk : Nat),
     let box := fun (s : State) (g : Group) => s.mbox (s.partOfTeam g.team) f.sel.toNat
     let waits := fun (i : Instr) (full : State → Group → Prop) => ∀ (s : State) (gid : Nat) (g : Group), i.wf = true →
       s.clear i f.g gid g = true → s.warpsOf (s.active g f.g) = [wk] → s.curResident = true → full s g →
       exec i s = .next (s.waitsAt gid .mailbox)
     Acts (.mbrd f) f.g (fun s _ g => s.warpsOf (s.active g f.g) = [wk] ∧ s.curResident = true ∧ (box s g).inFull = true) (fun s _ g t =>
       t.sget wk f.d.toNat = (if f.d = 63 then 0 else (box s g).inW) ∧ box t g = { box s g with inFull := false } ∧
       (∀ wk' r, r < 64 → ¬(wk' = wk ∧ r = f.d.toNat) → t.sget wk' r = s.sget wk' r) ∧ sameThreads s t ∧
       t = { s with sr := t.sr, armed := t.armed, sbad := t.sbad, mb := t.mb, threads := t.threads }) ∧
     waits (.mbrd f) (fun s g => (box s g).inFull = false) ∧
     Acts (.mbwr f) f.g (fun s _ g => s.warpsOf (s.active g f.g) = [wk] ∧ s.curResident = true ∧ (box s g).outFull = false ∧
         s.ringBlocked (s.partOfTeam g.team) = false ∧ s.relReady s.nid wk g.core .sys = true) (fun s _ g t =>
       box t g = { box s g with outW := s.sget wk f.a.toNat, outFull := true } ∧ sameThreads s t ∧ sameScalars s t ∧ sameLanes s t) ∧
     waits (.mbwr f) (fun s g => (box s g).outFull = true) ∧
     TrapsAll (.mbrd f) f.g 0x04 (fun s _ _ => s.curResident = false) ∧ TrapsAll (.mbwr f) f.g 0x04 (fun s _ _ => s.curResident = false))

/-- R210 to R213, R233: MSEND outside a DET trap puts one message of each active thread on its way, with ADDRESS for a core outside the partition;
MRECV of one thread posts a receive whose token pair is pending, where no overflowed message fits and the list has room; MPROBE reads the token word
of the first message of the overflow queue that fits, 0 where there is none. -/
def Obligations.Messages : Prop :=
  ∀ f : En,
    let core := fun (s : State) (th : Nat) => (s.vget th f.p.toNat).toNat % 4096
    let inside := fun (s : State) (g : Group) (th : Nat) => s.partHolds (s.partOfTeam g.team) (core s th / 4)
    (∀ (s : State) (gid : Nat) (g : Group), (Instr.msend f).wf = true → s.clear (.msend f) f.g gid g = true →
      (∀ th ∈ s.active g f.g, s.relReady s.nid (s.wkOf th) (s.coreOfTh th) .pkg = true) →
      ∃ (t : State) (ms : List Flight),
        exec (.msend f) s = .next (t.finish gid [] (((s.active g f.g).filter (fun th => !inside s g th)).map (fun th => trapAt g th 0x06))) ∧
        t = { s with msgs := s.msgs ++ ms } ∧ ms.map (fun m => m.msg.srcTh) = (s.active g f.g).filter (inside s g) ∧
        ∀ m ∈ ms, m.core = core s m.msg.srcTh ∧ m.team = (s.vget m.msg.srcTh (f.p.toNat + 1)).toNat ∧
          m.msg.tag.toNat = (s.vget m.msg.srcTh f.p.toNat).toNat / 65536 ∧ m.msg.srcCore = s.coreOfTh m.msg.srcTh ∧
          m.msg.words = (List.range (bitsOf f.emod 0 4)).map (fun k => s.vget m.msg.srcTh (f.x.toNat + k))) ∧
    (∀ th, Acts (.mrecv f) f.g
      (fun s _ g => s.active g f.g = [th] ∧ (∃ gr, s.gridOfTeam g.team = some gr ∧ gr.travel = false) ∧ s.curCtx.det = false ∧
        (∃ a, s.check th ⟨.local_, (s.vget th f.x.toNat).setWidth 64, 32, 32, false, true, 0, 0, true, false⟩ = .ok a) ∧
        (∀ m ∈ s.ovfOf g.core (teamOfTh th) false, let q := s.recvAsk th f.p; m.fits q.1 q.2.1 q.2.2.1 q.2.2.2 = false) ∧
        (s.coreOf g.core).posted.length < 16)
      (fun s _ g t =>
        let q := s.recvAsk th f.p
        (t.coreOf g.core).posted = (s.coreOf g.core).posted ++
          [{ op := s.nid, team := teamOfTh th, th := th, src := q.1, tag := q.2.1, anySrc := q.2.2.1, anyTag := q.2.2.2,
             buf := (s.vget th f.x.toNat).setWidth 64, tok := f.t }] ∧
        (f.t ≠ 255 → ∀ k < 2, SMap.look t.vbusy (vkey th (f.t.toNat + k)) = some s.nid) ∧ sameThreads s t ∧
        t = { s with nid := s.nid + 1, vbusy := t.vbusy, cores := t.cores, threads := t.threads })) ∧
    Acts (.mprobe f) f.g (fun s _ g => (∃ gr, s.gridOfTeam g.team = some gr ∧ gr.travel = false) ∧ s.curCtx.det = false) (fun s _ g t =>
      (∀ th ∈ s.active g f.g, let q := s.recvAsk th f.p
        t.vgetp th f.d.toNat = (((s.ovfOf g.core (teamOfTh th) false).find? (fun m => m.fits q.1 q.2.1 q.2.2.1 q.2.2.2)).map Msg.word).getD 0) ∧
      (∀ th r, r < 256 → ¬(th ∈ s.active g f.g ∧ (r = f.d.toNat ∨ r = f.d.toNat + 1)) → t.vget th r = s.vget th r) ∧ onlyLanes s t)

/-- R215 to R217: GO and GOX to a target within the thread's segment, or in an ordinary grid, move the PC as a branch does; to another segment, a
thread whose stores are performed and whose live registers are written leaves in a parcel, which holds its target, its mask and the registers the mask
names; its other registers read zero. R218: SEGREP of one warp puts a replication request under way and makes its token pending; nothing else changes
before its completion. -/
def Obligations.Departures : Prop :=
  (∀ f : Ct,
     let here := fun (i : Instr) (tgt : State → Group → Nat → W64) =>
       Acts i f.g (fun s _ g => ∃ gr, s.gridOfTeam g.team = some gr ∧ ∀ th ∈ s.active g f.g, s.destOf gr th (tgt s g th) = .here)
         (fun s gid g t =>
           (∀ th ∈ s.active g f.g, (SMap.look t.threads th).map Thread.pc = some (tgt s g th)) ∧
           (∀ th, th ∉ s.active g f.g → SMap.look t.threads th = SMap.look s.threads th) ∧
           (∃ g', SMap.look t.groups gid = some g' ∧ g'.moved = g.moved ++ s.active g f.g) ∧ t = { s with threads := t.threads, groups := t.groups })
     let away := fun (i : Instr) (tgt : State → Group → Nat → W64) (mask : State → Nat → W32) =>
       ∀ th seg sg gr, Acts i f.g
         (fun s gid g => s.active g f.g = [th] ∧ s.gridOfTeam g.team = some gr ∧ s.destOf gr th (tgt s g th) = .away seg ∧
           SMap.look gr.segs seg = some sg ∧ s.mayDepart th (mask s th) = true ∧ (SMap.look s.threads th).map Thread.stat = some (.grouped gid))
         (fun s gid g t => ∃ p : Parcel, t.flying = s.flying ++ [p] ∧ p.th = th ∧ p.pc = tgt s g th ∧ p.mask = mask s th ∧ p.seg = seg ∧
           p.regs = ((List.range 32).filter (laneBit (mask s th))).map (s.vget th) ∧ (∀ k < 7, p.pred.getLsbD k = s.pget th k) ∧
           (∃ u, SMap.look t.threads th = some u ∧ u.stat = .parcel ∧ u.pc = tgt s g th) ∧
           (∃ g', SMap.look t.groups gid = some g' ∧ th ∉ g'.threads) ∧
           (∀ r < 32, t.vget th r = if laneBit (mask s th) r then s.vget th r else 0) ∧
           (∀ th' r, r < 256 → ¬(th' = th ∧ r < 32) → t.vget th' r = s.vget th' r) ∧
           (∀ th', th' ≠ th → SMap.look t.threads th' = SMap.look s.threads th') ∧
           t = { s with threads := t.threads, groups := t.groups, flying := t.flying, v := t.v, vbad := t.vbad, vbusy := t.vbusy, ops := t.ops,
                        warps := t.warps })
     let rel := fun (_ : State) (g : Group) (_ : Nat) => g.pc + f.off.signExtend 64
     let reg := fun (s : State) (_ : Group) (th : Nat) => s.vgetp th f.a.toNat + f.off.signExtend 64
     here (.go f) rel ∧ here (.gox f) reg ∧ away (.go f) rel (fun s th => s.vget th f.a.toNat) ∧
     away (.gox f) reg (fun s th => s.vget th (f.a.toNat + 2))) ∧
  (∀ (f : En) (wk : Nat) (gr : Grid),
     Acts (.segrep f) f.g (fun s _ g => s.warpsOf (s.active g f.g) = [wk] ∧ s.gridOfTeam g.team = some gr) (fun s _ _ t =>
       let v := s.sget wk f.p.toNat
       SMap.look t.segreqs s.nid = some ⟨gr.ctx, some (wk, f.t), hi32 v, v.toNat % 1024,
         if f.x = 63 then none else some ((s.sget wk f.x.toNat).toNat % 4096)⟩ ∧
       (f.t ≠ 63 → SMap.look t.sbusy (skey wk f.t.toNat) = some s.nid) ∧
       t = { s with nid := s.nid + 1, sbusy := t.sbusy, segreqs := t.segreqs }))

/-- R222: SLEEP marks the active threads to park at the end of the clause; EVSIG of one warp sets its team's event flag where no thread of the team
sleeps, and wakes them otherwise. At the end of the clause a sleeper goes on at once where the flag is set, which clears it, and parks otherwise,
where it owes no trap.
R219, R375: BOOST of one warp leaves a claim at its cluster, with the interval count clipped to 1,048,576, and waits; once a boundary has decided it
for every thread of the group, the group goes on. -/
def Obligations.SleepAndBoost : Prop :=
  ((∀ f : Im,
     Acts (.sleep f) f.g always (fun s gid g t =>
       (∃ g', SMap.look t.groups gid = some g' ∧ (∀ th ∈ s.active g f.g, (th, f.imm) ∈ g'.sleepers) ∧
         (∀ p ∈ g'.sleepers, p ∈ g.sleepers ∨ (p.1 ∈ s.active g f.g ∧ p.2 = f.imm)) ∧ g' = { g with sleepers := g'.sleepers }) ∧
       t = { s with groups := t.groups, threads := t.threads }) ∧
     (∀ wk tm, Acts (.evsig f) f.g (fun s _ g => s.warpsOf (s.active g f.g) = [wk] ∧ f.imm = 0 ∧ SMap.look s.teams g.team = some tm ∧
         s.sleepersOf g.team = []) (fun s _ g t => SMap.look t.teams g.team = some { tm with flag := true } ∧ t = { s with teams := t.teams })) ∧
     (∀ wk, Acts (.evsig f) f.g (fun s _ g => s.warpsOf (s.active g f.g) = [wk] ∧ (f.imm ≠ 0 ∨ s.sleepersOf g.team ≠ []))
       (fun s _ g t => t.v = s.v ∧ t.mem = s.mem ∧
         (f.imm = 0 → ∀ th ∈ s.sleepersOf g.team, (SMap.look t.threads th).map Thread.stat ≠ some .asleep)))) ∧
   (∀ (s : State) (th : Nat) (limit : W32) (tm : Team) (u : Thread), SMap.look s.teams (teamOfTh th) = some tm → SMap.look s.threads th = some u →
     s.owes th = false → (tm.flag = false → (SMap.look (s.goSleep th limit).threads th).map (fun x => (x.stat, x.sleepEnd)) =
       some (.asleep, if limit = 0 then none else some limit)) ∧
     (tm.flag = true → (SMap.look (s.goSleep th limit).teams (teamOfTh th)).map Team.flag = some false))) ∧
  (∀ f : Yf,
     (∀ (s : State) (gid : Nat) (g : Group) (wk : Nat) (gr : Grid), (Instr.boost f).wf = true → s.clear (.boost f) f.g gid g = true →
       s.warpsOf (s.active g f.g) = [wk] → s.gridOfTeam g.team = some gr → ((s.cluster (g.core / 4)).claims.all (fun c => c.wk != wk)) = true →
       ∃ t : State, exec (.boost f) s = .next (t.waitsAt gid Stall.boost) ∧
         (t.cluster (g.core / 4)).claims = (s.cluster (g.core / 4)).claims ++
           [⟨wk, s.active g f.g, f.d, f.sel.toNat, min (s.sget wk f.a.toNat).toNat 1048576, gr.ctx, s.now⟩] ∧
         t.cluster (g.core / 4) = { s.cluster (g.core / 4) with claims := (t.cluster (g.core / 4)).claims } ∧
         t = { s with clusters := t.clusters }) ∧
     (∀ (s : State) (gid : Nat) (g : Group), (Instr.boost f).wf = true → s.cur = some gid → SMap.look s.groups gid = some g → g.waited = true →
       (∀ th ∈ g.threads, ∃ u, SMap.look s.threads th = some u ∧ u.rdvDone = true) →
       ∃ t : State, exec (.boost f) s = .next (t.finish gid [] []) ∧ (∀ th ∈ g.threads, (SMap.look t.threads th).map Thread.rdvDone = some false) ∧
         t = { s with threads := t.threads }))

/-- R220: BOOSTQ reads the boost state once per warp: with SEL 0 the permits and the pattern level, with 1 and 2 the partition's life budget and
reserved amount, with 3 the intervals left of the cluster's lease; any other SEL is no instruction and raises ENCODING; in a DET context it raises
DETERMINISM, precisely. -/
def Obligations.BoostQueries : Prop :=
  ∀ f : Yf,
    ((Instr.boostq f).wf = true → f.sel.toNat ≤ 3) ∧
    (∀ w : W64, bits w 56 8 = 0xF8 → 4 ≤ (bits w 20 16).toNat → decodeWord w = .error .encoding) ∧
    Acts (.boostq f) f.g (fun s _ _ => s.curCtx.det = false) (fun s _ g t =>
      let cl := s.cluster (g.core / 4)
      let p := s.partOfTeam g.team
      (∀ wk ∈ s.warpsOf (s.active g f.g), t.sget wk f.d.toNat = if f.d = 63 then 0 else match f.sel.toNat with
        | 0 => BitVec.ofNat 64 (cl.permits % 256 + 256 * (s.levelOf (g.core / 4) % 32))
        | 1 => s.csrGet (0x1010 + 0x100 * p)
        | 2 => s.csrGet (0x1011 + 0x100 * p)
        | _ => BitVec.ofNat 64 ((cl.lease.map Lease.left).getD 0)) ∧
      (∀ wk r, r < 64 → ¬(wk ∈ s.warpsOf (s.active g f.g) ∧ r = f.d.toNat) → t.sget wk r = s.sget wk r) ∧ onlyScalars s t) ∧
    TrapsAll (.boostq f) f.g 0x11 (fun s _ _ => s.curCtx.det = true)

/-- R197, R231 to R233: SYSRD of a selector within the context's level reads it; SYSWR of one warp, with its older accesses performed at .sys scope,
writes it, and the power registers of the device read back what was written; above the level both raise PRIVILEGE, and in a DET context SYSRD of a V
selector raises DETERMINISM. -/
def Obligations.SystemSelectors : Prop :=
  (∀ f : Yf,
    let sel := f.sel.toNat
    let volatile := ((selRow sel).map SelRow.v).getD false
    (∀ gr, Acts (.sysrd f) f.g (fun s _ g => s.gridOfTeam g.team = some gr ∧ s.selDenied sel = false ∧ ¬(s.curCtx.det = true ∧ volatile = true))
      (fun s _ g t =>
        (∀ wk ∈ s.warpsOf (s.active g f.g), t.sget wk f.d.toNat = if f.d = 63 then 0 else s.selRead gr.ctx sel) ∧
        (∀ wk r, r < 64 → ¬(wk ∈ s.warpsOf (s.active g f.g) ∧ r = f.d.toNat) → t.sget wk r = s.sget wk r) ∧ onlyScalars s t)) ∧
    (∀ gr wk, ∀ (s : State) (gid : Nat) (g : Group), (Instr.syswr f).wf = true → s.clear (.syswr f) f.g gid g = true →
      s.warpsOf (s.active g f.g) = [wk] → s.gridOfTeam g.team = some gr → s.selDenied sel = false → s.relReady s.nid wk g.core .sys = true →
      ∀ (mask : W64), (s.sget wk f.a.toNat) &&& mask = 0 →
      (sel = 0x2000 ∧ mask = 0xFFFF0000FF00FFFE ∨ sel = 0x2001 ∧ mask = 0xFFFFFFFFFFFFFF00 ∨ sel = 0x2002 ∧ mask = 0xFFFFFFFFFF000000 ∨
        sel = 0x2010 ∧ mask = 0xFFFFFF00000000FC) →
      ∃ t : State, exec (.syswr f) s = .next (t.finish gid [] []) ∧ t.csrGet sel = s.sget wk f.a.toNat ∧
        (∀ sel', sel' ≠ sel → t.csrGet sel' = s.csrGet sel') ∧ sameThreads s t ∧ t = { s with csr := t.csr, threads := t.threads }) ∧
    (∀ gr wk, Acts (.syswr f) f.g (fun s _ g => s.warpsOf (s.active g f.g) = [wk] ∧ s.gridOfTeam g.team = some gr ∧ s.selDenied sel = false ∧
        s.relReady s.nid wk g.core .sys = true ∧
        ∀ th ∈ g.threads, (SMap.look (s.selWrite gr.ctx (s.ctxOfTeam g.team).level sel (s.sget wk f.a.toNat)).threads th).isSome = true)
      (fun s _ g t => t = { s.selWrite gr.ctx (s.ctxOfTeam g.team).level sel (s.sget wk f.a.toNat) with threads := t.threads })) ∧
    TrapsAll (.sysrd f) f.g 0x04 (fun s _ _ => s.selDenied sel = true) ∧ TrapsAll (.syswr f) f.g 0x04 (fun s _ _ => s.selDenied sel = true) ∧
    TrapsAll (.sysrd f) f.g 0x11 (fun s _ _ => s.selDenied sel = false ∧ s.curCtx.det = true ∧ volatile = true)) ∧
  (∀ (s : State) (sel : Nat) (r : SelRow), selRow sel = some r →
    (s.selDenied sel = true ↔ s.curCtx.level < levelNeeded s r (s.curCk / 8)))

/-- R104, R147, R212, R222, R254, R357, R374: GROUP_FORM forms a group of the entry that comes next, at its clause header; a walk that finds a page
installs it for the miss, one that finds none traps its lane with UNMAPPED; MESSAGE_ARRIVAL delivers to the first posted receive that fits, and
otherwise queues; WTIMER_EXPIRE makes every thread of the warp owe a TIMER; SLEEP_TIMEOUT wakes a sleeper whose limit has passed; SLEW_RESUME resumes
a cluster whose turn has come. -/
def Obligations.CoreEvents : Prop :=
  (∀ (s : State) (core : Nat) (e : Nat × Thread) (gr : Grid) (w : W64), s.mayForm core = true → s.nextEntry core = some e →
    s.gridOfTeam (teamOfTh e.1) = some gr → s.clauseBad gr e.2.pc = false →
    let ths := s.fillGroup core (teamOfTh e.1) e.2.pc
    ths ≠ [] → (∀ th ∈ ths, ∃ t, SMap.look s.threads th = some t ∧ s.decodeClause gr t.seg t.handler e.2.pc = .ok w) →
    ∃ (t : State) (g : Group), exec (.evGroupForm core) s = .next t ∧ SMap.look t.groups s.nid = some g ∧ g.threads = ths ∧ g.core = core ∧
      g.team = teamOfTh e.1 ∧ g.head = e.2.pc ∧ g.hword = w ∧ g.idx = 0 ∧ g.waited = false ∧
      (∀ th ∈ ths, (SMap.look t.threads th).map Thread.stat = some (.grouped s.nid)) ∧ sameScalars s t ∧ sameLanes s t ∧ t.mem = s.mem) ∧
  (∀ (s : State) (wk k victim : Nat) (e : REntry) (th : Nat) (rest : List Nat) (va : Nat), s.wkRuns wk = true → (s.rqOf wk)[k]? = some e →
    e.parked = true → s.missWaits wk k = false → s.parkedWith wk e = th :: rest →
    ((List.range 32).filter (laneBit e.mask)).findSome? (s.laneMiss wk (s.coreOfTh th) e) = some va → inParamWindow va = false →
    let ck := ((s.gridOfTeam (teamOfTh th)).map Grid.ctx).getD 0
    let page := missExtent (((s.gridOfTeam (teamOfTh th)).map Grid.ranges).getD []) va
    let s1 := s.noteWalk ck va
    (∀ x, e.hold = none → s.walk ck va = .leaf x → (s.coreOf (s.coreOfTh th)).exts.length < 64 →
      ∃ t : State, exec (.evExtentMissResolved wk k victim) s = .next t ∧ (s1.install (s.coreOfTh th) (page x) victim).extentAt (s.coreOfTh th) va ≠ none ∧
        t = (s1.install (s.coreOfTh th) (page x) victim).reissue wk k e) ∧
    (e.hold = none → s.walk ck va = .hold → ∃ t : State, exec (.evExtentMissResolved wk k victim) s = .next t ∧
      ((SMap.look t.warps wk).map (fun w => w.rq[k]?)) = some (some { e with hold := some (BitVec.ofNat 64 va) }) ∧ t.threads = s.threads) ∧
    (e.hold ≠ none → exec (.evExtentMissResolved wk k victim) s = .next s) ∧
    (s.walk ck va = .unmapped → e.hold = none → e.kind = 1 → rest = [] → e.mask = maskOf [laneOfTh th] → laneOfTh th < 32 →
      ((s.entryInstr wk e).bind formOf).isSome = true →
      ∃ (t : State) (e1 : REntry), exec (.evExtentMissResolved wk k victim) s = .next t ∧ s.laneMiss wk (s.coreOfTh th) e (laneOfTh th) = some va ∧
        (SMap.look t.warps wk).map Warp.rq = some ((s.rqOf wk).eraseIdx k ++ [e1]) ∧ e1.kind = 0 ∧ e1.trap = 0x07 ∧ e1.mask = e.mask ∧
        e1.pc = e.pc)) ∧
  (∀ (s : State) (n : Nat) (fl : Flight) (tk : Nat) (tm : Team) (gr : Grid), s.msgs[n]? = some fl →
    ((s.msgs.take n).all (fun e => !(e.msg.srcTh == fl.msg.srcTh && e.team == fl.team && e.grid == fl.grid))) = true →
    s.teamByIdx fl.grid fl.team = some tk → SMap.look s.grids fl.grid = some gr → SMap.look s.teams tk = some tm → gr.travel = false →
    tm.at_ = .placed → s.teamLive tk ≠ 0 →
    let left := s.msgs.take n ++ s.msgs.drop (n + 1)
    (∀ r, (s.coreOf tm.core).posted.find? (fun r => r.team == tk && fl.msg.fits r.src r.tag r.anySrc r.anyTag) = some r →
      s.gridOfTeam (teamOfTh r.th) = some gr → r.tok.toNat < 254 → SMap.look s.vbusy (vkey r.th r.tok.toNat) = some r.op →
      (∃ u, SMap.look s.threads r.th = some u ∧ u.stat ≠ .evicted) →
      ∃ t : State, exec (.evMessageArrival n) s = .next t ∧ t.msgs = left ∧ t.vgetp r.th r.tok.toNat = fl.msg.word ∧
        SMap.look t.vbusy (vkey r.th r.tok.toNat) = none ∧
        (∀ i, (i < 4 * fl.msg.words.length → t.scrByte (2 * teamOfTh r.th) (r.buf.toNat + i) =
          ((fl.msg.words.flatMap (fun w => leBytes 4 w.toNat))[i]?).getD 0)) ∧
        (∀ q ∈ (t.coreOf tm.core).posted, q ∈ (s.coreOf tm.core).posted ∧ q.op ≠ r.op)) ∧
    ((s.coreOf tm.core).posted.find? (fun r => r.team == tk && fl.msg.fits r.src r.tag r.anySrc r.anyTag) = none → tm.ovf.length < 32 →
      ∃ t : State, exec (.evMessageArrival n) s = .next t ∧ t.msgs = left ∧
        SMap.look t.teams tk = some { tm with ovf := tm.ovf ++ [fl.msg] } ∧ t = { s with msgs := t.msgs, teams := t.teams })) ∧
  (∀ (s : State) (wk : Nat) (w : Warp), s.wkRuns wk = true → SMap.look s.warps wk = some w → w.wtimer ≠ 0 → s.wtimerOf wk = 0 →
    ∃ (t : State) (u : Warp), exec (.evWtimerExpire wk) s = .next t ∧ SMap.look t.warps wk = some u ∧ u.wtimer = 0 ∧
      (∀ th x, SMap.look s.threads th = some x → SMap.look t.threads th =
        some (if x.wk = wk ∧ x.stat ≠ .exited ∧ x.stat ≠ .parcel ∧ x.stat ≠ .evicted then { x with timer := true } else x)) ∧
      u = { w with wtimer := 0 } ∧ t = { s with warps := t.warps, threads := t.threads }) ∧
  (∀ (s : State) (th : Nat) (u : Thread) (n : W32), s.thRuns th = true → SMap.look s.threads th = some u → u.stat = .asleep → u.sleepEnd = some n →
    n.toNat ≤ s.teamCyc (teamOfTh th) - u.sleepAt → s.owes th = false →
    ∃ t : State, exec (.evSleepTimeout th) s = .next t ∧ (SMap.look t.threads th).map (fun x => (x.stat, x.sleepEnd)) = some (.ready, none) ∧
      sameScalars s t ∧ sameLanes s t ∧ t.mem = s.mem) ∧
  (∀ (s : State) (c at_ : Nat), (s.cluster c).slewed = some at_ → at_ ≤ s.now →
    exec (.evSlewResume c) s = .next { s with clusters := SMap.ins s.clusters c { s.cluster c with slewed := none } })

/-- R216, R218, R285, R286, R289: a waiting departure enters its open queue, or is noted at a full one, and spills to the ring after 4,096 cycles; an
admission gives a parcel a slot, writes the registers it ships and makes its thread ready at its PC, the other registers as the departure left them; a
ring refills a
queue that has room; a replication ends with its token's word, with status 3 for a grid that does not run, and waits while its partition is in a resize; a segment's interval
ends at a whole millisecond of %wall with its counts at 0,
and not before
1 ms. -/
def Obligations.TravelEvents : Prop :=
  (∀ (s : State) (n : Nat) (p : Parcel) (gk : Nat) (sg : Seg), s.flying[n]? = some p → s.parcelSeg p = some (gk, sg) →
    (s.segMoving p.dst = false → s.queueOpen sg p.dst = true → ∃ t : State, exec (.evParcelEnqueue n) s = .next t ∧ t.flying = s.flying.take n ++ s.flying.drop (n + 1) ∧
      t.coreOf p.dst = { s.coreOf p.dst with queue := (s.coreOf p.dst).queue ++ [p] } ∧ t = { s with flying := t.flying, cores := t.cores }) ∧
    (s.segMoving p.dst = false → s.queueOpen sg p.dst = false → p.full = false → ∃ t : State, exec (.evParcelEnqueue n) s = .next t ∧
      t.flying = s.flying.set n { p with full := true, at_ := s.clusCyc (p.dst / 4) } ∧ t = { s with flying := t.flying, grids := t.grids }) ∧
    ((p.full = true ∧ p.at_ + 4096 ≤ s.clusCyc (p.dst / 4)) ∨ s.segMoving p.dst = true → ∃ t : State, exec (.evParcelSpill n) s = .next t ∧
      t.flying = s.flying.take n ++ s.flying.drop (n + 1) ∧
      ((SMap.look t.grids gk).bind (fun g => SMap.look g.segs p.seg)) = some { sg with ring := sg.ring ++ [p], spills := sg.spills + 1 } ∧
      t = { s with flying := t.flying, grids := t.grids, mem := t.mem })) ∧
  (∀ (s : State) (core lane slot : Nat) (p : Parcel) (u : Thread) (gr : Grid), ((s.coreOf core).ctx.map s.running) = some true →
    s.clusterUp (core / 4) = true → (s.coreOf core).queue.find? (fun p => laneOfTh p.th == lane) = some p → s.slotFor core lane = some slot →
    SMap.look s.threads p.th = some u → u.stat = .parcel → u.msgOvf = false → u.timer = false → s.gridOfTeam (teamOfTh p.th) = some gr →
    s.isHeader gr.code p.pc = true → teamOfTh p.th ∉ (s.coreOf core).owed →
    (∀ w, SMap.look s.warps (slotKey core slot) = some w → w.wtimer = 0 ∨ s.wtimerOf (slotKey core slot) ≠ 0) →
    p.regs.length = ((List.range 32).filter (laneBit p.mask)).length →
    ∃ t : State, exec (.evParcelAdmit core lane) s = .next t ∧
      (SMap.look t.threads p.th).map (fun x => (x.wk, x.stat, x.pc, x.seg)) = some (slotKey core slot, .ready, p.pc, p.seg) ∧
      (∀ e ∈ ((List.range 32).filter (laneBit p.mask)).zip p.regs, t.vget p.th e.1 = e.2) ∧
      (∀ r < 32, laneBit p.mask r = false → t.vget p.th r = s.vget p.th r) ∧ (∀ k < 7, t.pget p.th k = p.pred.getLsbD k) ∧
      (∀ q ∈ (t.coreOf core).queue, q ∈ (s.coreOf core).queue ∧ q.th ≠ p.th)) ∧
  (∀ (s : State) (core gk seg : Nat) (g : Grid) (sg : Seg) (p : Parcel), (s.coreOf core).seg = some (gk, seg) → SMap.look s.grids gk = some g →
    SMap.look g.segs seg = some sg → sg.ring = [p] → s.segMoving core = false → (s.coreOf core).queue.length ≤ s.qdepth core - s.qdepth core / 4 →
    ∃ t : State, exec (.evRingDrain core) s = .next t ∧ t.coreOf core = { s.coreOf core with queue := (s.coreOf core).queue ++ [{ p with dst := core }] } ∧
      ((SMap.look t.grids gk).bind (fun g => SMap.look g.segs seg)) = some { sg with ring := [], head := sg.head + 1 } ∧ t = { s with grids := t.grids, cores := t.cores }) ∧
  (∀ (s : State) (id : Nat) (r : SegReq) (wk : Nat) (tok : RegField) (c : Ctx), SMap.look s.segreqs id = some r → r.tok = some (wk, tok) →
    tok.toNat < 63 → SMap.look s.ctxs r.ctx = some c →
    (s.replicasHeld r.ctx = true → exec (.evSegrepComplete id) s = .next s) ∧ (s.replicasHeld r.ctx = false →
    let d := s.replicate r.ctx r.grid r.seg r.pref
    ∃ t : State, exec (.evSegrepComplete id) s = .next t ∧ SMap.look t.segreqs id = none ∧ SMap.look t.sbusy (skey wk tok.toNat) = none ∧
      t.sget wk tok.toNat = BitVec.ofNat 64 (0x8000 + d.2.1 + 2 ^ 48 * (if c.det then 0 else d.2.2)) ∧
      ((∀ e ∈ s.grids, ¬(e.2.ctx = r.ctx ∧ e.2.num = r.grid ∧ e.2.travel = true ∧ e.2.done = false ∧ ∀ x ∈ e.2.segs, x.2.cores ≠ [])) → d.2.1 = 3) ∧
      (∀ gk g sg, SMap.find (fun _ g => g.ctx == r.ctx && g.num == r.grid && g.travel && !g.done && g.segs.all (fun e => !e.2.cores.isEmpty)) s.grids =
        some (gk, g) →
        SMap.look g.segs r.seg = some sg → 8 ≤ sg.cores.length → d.2.1 = 1))) ∧
  (∀ (s : State) (gk seg : Nat) (g : Grid) (sg : Seg), SMap.look s.grids gk = some g → SMap.look g.segs seg = some sg →
    (s.now < sg.hotAt + 84000000 → exec (.evSeghot gk seg) s = .next s) ∧
    (sg.cores ≠ [] → g.done = false → sg.hotAt + 84000000 ≤ s.now →
      ∃ t : State, exec (.evSeghot gk seg) s = .next t ∧
      ∃ sg', ((SMap.look t.grids gk).bind (fun g => SMap.look g.segs seg)) = some sg' ∧ sg'.admitted = 0 ∧ sg'.qfull = 0 ∧ sg'.spills = 0 ∧
        (sg.qfull < 16 ∧ sg.spills < 1 → t = { s with grids := t.grids } ∧
          sg' = { sg with admitted := 0, qfull := 0, spills := 0, hotAt := s.now - (s.now - s.resetAt) % 84000000 })))

/-- R86, R203 to R207, R255 to R257, R307, R324: FORK_ACCEPT refuses a record it cannot read with CHILD_INVALID and accepts one whose launch has no
fault, which makes a grid of the child's teams; TEAM_PLACE puts the dispatcher's first unit on a core with every thread ready at the entry and the
launch values in s0 to s2 and v28; a passed-over team is protected after 1 ms; FJOIN_RESUME puts a suspended team on a core again; a team whose warps
are freed gives up its registers, and retires at once where no child is outstanding. -/
def Obligations.TeamEvents : Prop :=
  (∀ (s : State) (id : Nat) (r : ForkReq) (room rings : Bool) (w : Warp) (g : Grid) (tm : Team), SMap.look s.forks id = some r →
    SMap.look s.warps r.wk = some w → s.gridOfTeam w.team = some g → SMap.look s.teams w.team = some tm → s.running g.ctx = true → r.tok.toNat < 63 →
    s.virtHeld g.ctx r.addr.toNat 64 = false →
    (s.childRead g.ctx r.addr.toNat 64 = none → ∃ t : State, exec (.evForkAccept id room rings) s = .next t ∧ SMap.look t.forks id = none ∧
      t.sget r.wk r.tok.toNat = 0x8003 ∧ SMap.look t.sbusy (skey r.wk r.tok.toNat) = none ∧
      SMap.look t.teams w.team = some { tm with children := tm.children - 1 }) ∧
    (∀ b im e ps, s.childRead g.ctx r.addr.toNat 64 = some b → s.imageOfGrid g = some im → im.entries[blkField b 0 4]? = some e →
      childOk b = true → blkField b 32 8 = 0 → s.virtHeld g.ctx (blkField b 8 8) e.params = false →
      s.childRead g.ctx (blkField b 8 8) e.params = some ps → room = true →
      s.launchStatus (childReq g im w.team r b (BitVec.ofNat 64 (slotVa (s.freeSlot g.ctx)))) rings = 0 →
      ∃ (t : State) (gk : Nat) (c : Grid), exec (.evForkAccept id room rings) s = .next t ∧ SMap.look t.forks id = none ∧
        SMap.look s.grids gk = none ∧ SMap.look t.grids gk = some c ∧ c.ctx = g.ctx ∧ c.depth = g.depth + 1 ∧ c.parent = some w.team ∧
        c.token = some (r.wk, r.tok.toNat) ∧ c.nteam = blkField b 4 4 ∧ c.num = ((SMap.look s.ctxs g.ctx).map Ctx.gridNo).getD 0 ∧
        (t.teams.filter (fun x => x.2.grid == gk && x.2.at_ == .unplaced)).length = (s.teams.filter (fun x => x.2.grid == gk && x.2.at_ == .unplaced)).length + c.nteam ∧
        t.sr = s.sr ∧ t.sbusy = s.sbusy)) ∧
  (∀ (s : State) (p n tk core : Nat) (us : List Machine.PUnit) (gk : Nat) (g : Grid) (tm : Team), (s.fe p).holder = some n → s.mayStart (8 * p + n) = true →
    s.quiesced p = false → (∀ e ∈ s.teams, e.2.at_ ≠ .halted ∧ e.2.at_ ≠ .suspended) → s.units (8 * p + n) = ⟨gk, [[tk]], false⟩ :: us →
    SMap.look s.grids gk = some g → SMap.look s.teams tk = some tm → tm.grid = gk → g.travel = false → g.cg ≤ 1 →
    s.planish ((s.partCores (g.ctx / 8)).filter (fun c => s.fits g c)) = some core → g.warps ≤ 64 →
    ∃ t : State, exec (.evTeamPlace p) s = .next t ∧ (∃ tm', SMap.look t.teams tk = some tm' ∧ tm'.at_ = .placed ∧ tm'.core = core) ∧
      (t.coreOf core).ctx = some g.ctx ∧
      (∀ tid < 32 * g.warps, ∃ u, SMap.look t.threads (thKey tk tid) = some u ∧ u.wk = warpKey tk (tid / 32) ∧ u.lane = tid % 32 ∧
        u.pc = g.entryPc ∧ u.stat = .ready ∧ (30 ≤ g.nv → t.vgetp (thKey tk tid) 28 = g.stackPtr tm.idx tid)) ∧
      (∀ k < g.warps, t.sget (warpKey tk k) 0 = g.param ∧ t.sget (warpKey tk k) 1 = g.dataSec ∧ t.sget (warpKey tk k) 2 = g.constSec)) ∧
  (∀ (s : State) (tk : Nat) (tm : Team) (at_ : Nat), SMap.look s.teams tk = some tm → tm.at_ = .unplaced → tm.passed = some at_ →
    at_ + 84000000 ≤ s.now → ∃ t : State, exec (.evTeamProtection tk) s = .next t ∧ SMap.look t.teams tk = some { tm with prot := true } ∧
      t = { s with teams := t.teams }) ∧
  (∀ (s : State) (tk core : Nat), s.mayResume tk = true → s.resumeCore tk = some core → s.bad = [] →
    ∃ t : State, exec (.evFjoinResume tk) s = .next t ∧
      (SMap.look t.teams tk).map (fun x => (x.at_, x.core, x.fjoined)) = some (.placed, core, [])) ∧
  (∀ (s : State) (tk : Nat) (tm : Team) (g : Grid), SMap.look s.teams tk = some tm → s.gridOfTeam tk = some g →
    (tm.at_ = .retiring → tm.children = 0 → 1 < g.teamsLeft → g.bmap = none →
      ∃ t : State, exec (.evTeamRetire tk) s = .next t ∧ SMap.look t.teams tk = some { tm with at_ := .retired, ovf := [], fjoined := [] } ∧
        (SMap.look t.grids tm.grid).map Grid.teamsLeft = some (g.teamsLeft - 1) ∧ t = { s with teams := t.teams, grids := t.grids }) ∧
    (s.teamOver tk = true → tm.children ≠ 0 →
      ∃ t : State, exec (.evTeamRetire tk) s = .next t ∧ (SMap.look t.teams tk).map Team.at_ = some .retiring ∧
        (∀ th, teamOfTh th = tk → SMap.look t.threads th = none ∧ ∀ r < 256, t.vget th r = 0) ∧ t.mem = s.mem))

/-- R178, R180, R186, R190, R248, R372: a pass of an MMA without masking adds one K-block to the sums of its tile; after the last one of the last tile
the tile is written, the D registers are free and the token has its completion word; a pass whose rise notice is not yet 64 master cycles old, or older
than 1,024, is not granted. A pass of CPYIN that converts nothing copies one block of 32
elements, and the token has its word after the last. CPYR ends when its peer has acknowledged, and with REMOTE when its link fails. -/
def Obligations.EngineEvents : Prop :=
  (∀ (s : State) (id : Nat) (o : EngOp) (g : Grid) (p : MmaPar), SMap.look s.eng id = some o → o.kind = 2 → o.core < 4096 → o.begun = true →
    s.gridOfTeam (teamOfTh o.th) = some g → mmaPar g.nv o.blk = some p → p.tri = false → o.tile < p.tiles →
    let cl := s.cluster (o.core / 4)
    let needs := (∀ t, cl.passAt = some t → t + 75 * 256 ≤ s.now) ∨ Config.passRaises id o.tile o.kblk = true
    let noticed := ∃ t, cl.notice = some t ∧ t + 75 * 64 ≤ s.now ∧ s.now ≤ t + 75 * 1024
    (needs → ¬noticed → ∀ faulty resid, exec (.evMmaPass id faulty resid) s = .next s) ∧ ((needs → noticed) →
    let org := p.origin o.tile
    let from_ := fun e => if o.kblk ≠ 0 then (o.acc[e]?).getD 0 else if p.ovw then 0 else s.tileGet o.wk p p.cb o.tile (e / 16) (e % 16)
    let elem := fun e => s.mmaStep o.wk p (org.1 + e / 16) (org.2 + e % 16) (o.kblk * p.bl) (from_ e) none
    (∀ e < 256, (elem e).2 = false) →
    (o.kblk + 1 < p.blocks → ∃ (t : State) (o' : EngOp), exec (.evMmaPass id [] {}) s = .next t ∧ SMap.look t.eng id = some o' ∧
      o'.acc = (List.range 256).map (fun e => (elem e).1) ∧ o' = { o with acc := o'.acc, kblk := o.kblk + 1 } ∧
      (SMap.look t.ctxs o.ctx).map Ctx.passes = (SMap.look s.ctxs o.ctx).map (fun c => c.passes + 1) ∧ t.v = s.v ∧ t.mem = s.mem) ∧
    (p.blocks ≤ o.kblk + 1 → o.tile + 1 = p.tiles → p.be = false → o.tok.toNat < 63 →
      ∃ t : State, exec (.evMmaPass id [] {}) s = .next t ∧ SMap.look t.eng id = none ∧ (∀ k, id ∉ (SMap.look t.vown k).getD []) ∧
        (∀ e < 256, t.tileGet o.wk p p.db o.tile (e / 16) (e % 16) = (elem e).1 % (if p.c = 1 then 2 ^ 64 else 2 ^ 32)) ∧
        t.sget o.wk o.tok.toNat = completionWord o.seq o.count o.trap 2 o.sus o.viol false ∧
        SMap.look t.sbusy (skey o.wk o.tok.toNat) = none ∧ t.mem = s.mem))) ∧
  (∀ (s : State) (id owner base : Nat) (o : EngOp) (c : Desc), SMap.look s.eng id = some o → o.kind = 4 → o.core < 4096 → o.begun = true →
    o.walked = false → s.thRuns o.th = true → s.engStopped o.core = false → descOf 4 (BitVec.ofNat 64 o.port) o.blk = some c → c.sf = c.df →
    c.scl = 0 → c.chk = false → c.panel = false → s.compactAt o c = (.scr owner, base) → s.bad = [] → o.tok.toNat < 63 →
    let b := o.kblk % c.nb
    let row := o.kblk / c.nb
    ∃ t : State, exec (.evCopyPass id) s = .next t ∧
      (∀ i < 32, 32 * b + i < c.e0 → ∀ j < c.sf.size,
        t.scrByte owner (base + c.cpos (32 * b + i) row + j) = s.byte (o.phys ((c.spos (32 * b + i) row).toNat + j))) ∧
      (o.kblk + 1 < c.blocks → SMap.look t.eng id = some { o with kblk := o.kblk + 1 }) ∧
      (c.blocks ≤ o.kblk + 1 → SMap.look t.eng id = none ∧ SMap.look t.sbusy (skey o.wk o.tok.toNat) = none ∧
        t.sget o.wk o.tok.toNat = completionWord o.seq o.count o.trap 4 o.sus o.viol false) ∧ t.mem = s.mem ∧ t.v = s.v) ∧
  (∀ (s : State) (id : Nat) (o : EngOp), SMap.look s.eng id = some o → o.tok.toNat < 63 →
    (o.walked = true → ∃ t : State, exec (.evCpyrAck id) s = .next t ∧ SMap.look t.eng id = none ∧
      t.sget o.wk o.tok.toNat = completionWord o.seq o.count o.trap o.kind o.sus o.viol false ∧ t.mem = s.mem ∧ t.v = s.v) ∧
    (∀ port, s.eng.filter (fun e => e.2.kind == 8 && e.2.port % 16 == port) = [(id, o)] →
      ∃ t : State, exec (.evLinkFailure port) s = .next t ∧ SMap.look t.eng id = none ∧
        t.sget o.wk o.tok.toNat = completionWord o.seq o.count 0x17 8 o.sus o.viol false ∧
        SMap.look t.armed (skey o.wk o.tok.toNat) = some 0x17 ∧ t.mem = s.mem ∧ t.v = s.v))

/-- R263, R305, R319, R362, R363, R365, R368: the holder of a slice that must yield begins its soft drain, whose deadline begins the hard halt with
STATE 2; a halt whose save area cannot be written, and one past its limit, end in a forced reset; a hang begins a halt with STATE 3, or resets where its
wait graph cannot be written; a restored team is on a core again, and one whose record holds an uncorrectable error halts its context with DATA_ERROR. -/
def Obligations.SwitchEvents : Prop :=
  (∀ (s : State) (p n : Nat) (c : Ctx), (s.fe p).holder = some n → SMap.look s.ctxs (8 * p + n) = some c → s.mustYield p n = true →
    s.quiesced p = false → c.drainAt = none → c.halting = none →
    ∃ t : State, exec (.evSliceEnd p) s = .next t ∧ t = { s with ctxs := t.ctxs } ∧
      SMap.look t.ctxs (8 * p + n) = some { c with drainAt := some (s.now + 84000 * (s.limits (8 * p + n)).1) }) ∧
  (∀ (s : State) (ck at_ : Nat) (c : Ctx), SMap.look s.ctxs ck = some c →
    (c.drainAt = some at_ → at_ ≤ s.now → c.halting = none → ∃ t : State, exec (.evSoftDrainDeadline ck) s = .next t ∧
      SMap.look t.ctxs ck = some { c with halting := some 2 } ∧ t = { s with ctxs := t.ctxs, warps := t.warps, teams := t.teams } ∧
      ∀ wk w g, SMap.look s.warps wk = some w → s.gridOfTeam w.team = some g → g.ctx = ck →
        (SMap.look t.warps wk).map Warp.gen = some ((w.gen + 1) % 16)) ∧
    (∀ code, c.halting = some code → (∀ t, c.haltAt = some t → s.now ≤ t) → s.haltReady ck = true → c.fault = none →
      let s1 := (s.recordOrder (s.teamsAt ck .placed)).foldl (fun s tk => s.haltTeam tk) s
      s1.grids.filter (fun e => e.2.ctx == ck && e.2.travel && !e.2.done) = [] → s1.rangeMapped ck saveBase 4096 true = false →
      ∃ t : State, exec (.evHaltComplete ck) s = .next t ∧
        (SMap.look t.ctxs ck).map (fun c => (c.sstate, c.halting, c.drainAt)) = some (5, none, none)) ∧
    (c.haltAt = some at_ → at_ ≤ s.now → ∃ t : State, exec (.evHardHaltLimit ck) s = .next t ∧
      (SMap.look t.ctxs ck).map (fun c => (c.sstate, c.halting, c.drainAt, c.fault)) = some (5, none, none, none) ∧
      (∀ k cell, SMap.look t.cells k = some cell → cell.ctx ≠ ck)) ∧
    (s.hangEn = true → 2 ^ s.hangExp ≤ c.stall.toNat → s.running ck = true →
      ∃ t : State, exec (.evHang ck) s = .next t ∧
        ((s.free.2.writeVirt ck (saveBase + 0x1000) (s.waitGraph ck)).2 = true →
          ∃ f, (SMap.look t.ctxs ck).map (fun c => (c.halting, c.fault)) = some (some 3, some f) ∧ f.code = 0x16) ∧
        ((s.free.2.writeVirt ck (saveBase + 0x1000) (s.waitGraph ck)).2 = false → (SMap.look t.ctxs ck).map Ctx.sstate = some 5))) ∧
  (∀ (s : State) (p n tk core : Nat) (tm : Team) (g : Grid), (s.fe p).holder = some n → s.mayStart (8 * p + n) = true → s.quiesced p = false →
    s.saved = [] → s.teamsAt (8 * p + n) .halted = [tk] → SMap.look s.teams tk = some tm → tm.at_ = .halted → s.gridOfTeam tk = some g →
    g.travel = false → g.cg ≤ 1 → s.planish ((s.partCores (g.ctx / 8)).filter (fun c => s.fits g c && s.receivesFit tk c && s.tablesFit [tk] (c / 4))) = some core →
    (s.bad = [] → ∃ t : State, exec (.evContextRestore p) s = .next t ∧ (SMap.look t.teams tk).map (fun x => (x.at_, x.core)) = some (.placed, core)) ∧
    (∀ c, SMap.look s.ctxs (8 * p + n) = some c → c.fault = none → s.recBad g.ctx g tm.idx = true →
      ∃ (t : State) (f : FaultInfo), exec (.evContextRestore p) s = .next t ∧ (SMap.look t.teams tk).map Team.at_ = some .halted ∧
        (SMap.look t.ctxs (8 * p + n)).map (fun c => (c.halting, c.fault)) = some (some 4, some f) ∧ f.code = 0x10))

/-- R303, R305, R319, R362, R363, R365, R368: each event of a context switch has its effect whenever the state calls for it. The slice's holder that must
yield gets its drain's end; at that time the context's halt begins with STATE 2 and its tags go up by one; a halt that has nothing outstanding, and whose
records can be written, completes with its STATE, its count of teams and those teams halted, and the front end is free; past its limit the context is
reset with STATE 5 and holds no cell; a hang whose wait graph can be written begins the halt with STATE 3 and HANG (0x16); a halted team that fits on a
core again is placed there. -/
def Obligations.SwitchCompletions : Prop :=
  (∀ (s : State) (p n : Nat) (c : Ctx), (s.fe p).holder = some n → SMap.look s.ctxs (8 * p + n) = some c → s.mustYield p n = true →
    s.quiesced p = false → c.drainAt = none → c.halting = none →
    ∃ t : State, exec (.evSliceEnd p) s = .next t ∧
      (SMap.look t.ctxs (8 * p + n)).map Ctx.drainAt = some (some (s.now + 84000 * (s.limits (8 * p + n)).1))) ∧
  (∀ (s : State) (ck at_ : Nat) (c : Ctx), SMap.look s.ctxs ck = some c → c.drainAt = some at_ → at_ ≤ s.now → c.halting = none →
    ∃ t : State, exec (.evSoftDrainDeadline ck) s = .next t ∧ (SMap.look t.ctxs ck).map Ctx.halting = some (some 2) ∧
      ∀ wk w g, SMap.look s.warps wk = some w → s.gridOfTeam w.team = some g → g.ctx = ck →
        (SMap.look t.warps wk).map Warp.gen = some ((w.gen + 1) % 16)) ∧
  (∀ (s : State) (ck code : Nat) (c : Ctx), SMap.look s.ctxs ck = some c → c.halting = some code → (∀ t, c.haltAt = some t → s.now ≤ t) →
    s.haltReady ck = true → c.fault = none →
    let s1 := (s.recordOrder (s.teamsAt ck .placed)).foldl (fun s tk => s.haltTeam tk) s
    s1.grids.filter (fun e => e.2.ctx == ck && e.2.travel && !e.2.done) = [] → s1.rangeMapped ck saveBase 4096 true = true →
    (s1.writeRecs ck 1 (s.recordOrder (s.teamsAt ck .placed))).2 = true →
    ∃ t : State, exec (.evHaltComplete ck) s = .next t ∧
      (SMap.look t.ctxs ck).map (fun c => (c.sstate, c.steams, c.halting)) = some (code, (s.teamsAt ck .placed).length, none) ∧
      (∀ tk ∈ s.teamsAt ck .placed, (SMap.look t.teams tk).map Team.at_ = some .halted) ∧ (t.fe (ck / 8)).holder ≠ some (ck % 8)) ∧
  (∀ (s : State) (ck at_ : Nat) (c : Ctx), SMap.look s.ctxs ck = some c → c.haltAt = some at_ → at_ ≤ s.now →
    ∃ t : State, exec (.evHardHaltLimit ck) s = .next t ∧ (SMap.look t.ctxs ck).map (fun c => (c.sstate, c.halting)) = some (5, none) ∧
      (∀ k cell, SMap.look t.cells k = some cell → cell.ctx ≠ ck) ∧ (t.fe (ck / 8)).holder ≠ some (ck % 8)) ∧
  (∀ (s : State) (ck : Nat) (c : Ctx), SMap.look s.ctxs ck = some c → s.hangEn = true → 2 ^ s.hangExp ≤ c.stall.toNat → s.running ck = true →
    (s.free.2.writeVirt ck (saveBase + 0x1000) (s.waitGraph ck)).2 = true →
    ∃ t : State, exec (.evHang ck) s = .next t ∧
      (SMap.look t.ctxs ck).map (fun c => (c.halting, c.fault.map FaultInfo.code)) = some (some 3, some 0x16)) ∧
  (∀ (s : State) (p n tk core : Nat) (g : Grid), (s.fe p).holder = some n → s.mayStart (8 * p + n) = true → s.quiesced p = false →
    s.saved = [] → s.bad = [] → s.teamsAt (8 * p + n) .halted = [tk] → (SMap.look s.teams tk).map Team.at_ = some .halted → s.gridOfTeam tk = some g →
    g.travel = false → g.cg ≤ 1 → s.planish ((s.partCores (g.ctx / 8)).filter (fun c => s.fits g c && s.receivesFit tk c && s.tablesFit [tk] (c / 4))) = some core →
    ∃ t : State, exec (.evContextRestore p) s = .next t ∧ (SMap.look t.teams tk).map (fun x => (x.at_, x.core)) = some (.placed, core))

/-- R315 to R318, R320, R322, R323: writes to a served front-end block and what they start: its mode, contexts made and destroyed, a graph loaded or
unloaded and the command's end, a trigger queued, a run started from it and a node of the run launched as a grid. A write with reserved bits set
changes no register of the block and is recorded. -/
def Obligations.FrontEndEvents : Prop :=
  (∀ (s : State) (p via : Nat) (v : W64), s.inService = true → p < 16 → s.served p via = true →
    let ck := 8 * p + field v 0 3
    let f := s.fe p
    (∀ rings, s.feModeBad p v = false → field v 0 2 ≠ 2 → ∃ t : State, exec (.evFeModeWrite p via v rings) s = .next t ∧
      t.csrGet (0x1020 + 0x100 * p) = v ∧ (field v 0 2 = 0 → ∀ k < 256, SMap.look t.graphs (256 * p + k) = none) ∧
      t = { s with csr := t.csr, fes := t.fes, graphs := t.graphs }) ∧
    (∀ rings, s.feModeBad p v = true → ∃ t : State, exec (.evFeModeWrite p via v rings) s = .next t ∧ (t.csrGet 0x3021).getLsbD 12 = true ∧
      (∀ sel, sel ≠ 0x3021 → t.csrGet sel = s.csrGet sel) ∧ t = { s with csr := t.csr }) ∧
    (v.getLsbD 3 = false → field v 9 3 = 0 → field v 7 2 ≠ 3 → (field v 7 2 = 2 → via = 0) → (s.feMode p = 2 → field v 0 3 = 0) →
      s.live ck = false → ∃ t : State, exec (.evCtxCreate p via v) s = .next t ∧
        SMap.look t.ctxs ck = some { root := v &&& 0xFFFFFFFFFFFFF000, level := field v 7 2, prio := field v 5 2, det := v.getLsbD 4 } ∧
        (t.fe p).lastErr = 0 ∧ t = { s with ctxs := t.ctxs, fes := t.fes }) ∧
    (v.getLsbD 3 = true → field v 9 3 = 0 →
      (s.live ck = true → ∃ t : State, exec (.evCtxDestroy p via v) s = .next t ∧ SMap.look t.ctxs ck = none ∧ (t.fe p).lastErr = 0) ∧
      (s.live ck = false → ∃ t : State, exec (.evCtxDestroy p via v) s = .next t ∧ (t.fe p).lastErr = 2 ∧ t = { s with fes := t.fes })) ∧
    (field v 9 3 = 0 → f.gcmd = none → s.ringBlocked p = false →
      let cmd := fun (t : State) (u : Bool) => (t.fe p).gcmd = some ⟨field v 0 8, u, v &&& 0xFFFFFFFFFFFFF000⟩ ∧ t = { s with fes := t.fes }
      (v.getLsbD 8 = false → ∃ t : State, exec (.evGraphLoad p via v) s = .next t ∧ cmd t false) ∧
      (v.getLsbD 8 = true → ∃ t : State, exec (.evGraphUnload p via v) s = .next t ∧ cmd t true)) ∧
    (field v 11 53 = 0 → s.feMode p = 1 → (SMap.look s.graphs (256 * p + field v 0 8)).isSome = true → s.live (8 * p + field v 8 3) = true →
      f.queue.length < 64 → ∃ t : State, exec (.evTrigger p via v) s = .next t ∧
        (t.fe p).queue = f.queue ++ [⟨8 * p + field v 8 3, field v 0 8, f.trigPatch, f.seq⟩] ∧
        (t.fe p).seq = (if f.seq = 0xFFFFFFFE then 0 else f.seq + 1) ∧ t = { s with fes := t.fes })) ∧
  (∀ (s : State) (p : Nat) (room : Bool) (c : GCmd), (s.fe p).gcmd = some c → ((s.fe p).queue.any (fun t => t.graph == c.graph)) = false →
    let ends := fun (t : State) (status : Nat) => exec (.evGraphDone p room) s = .next t ∧ (t.fe p).gcmd = none ∧
      (t.fe p).gstat = BitVec.ofNat 64 (c.graph + 256 * status)
    (c.unload = true → ∃ t : State, ends t 0 ∧ SMap.look t.graphs (256 * p + c.graph) = none) ∧
    (∀ s1 g, c.unload = false → s.readGraph c.image.toNat = .ok (s1, g) → room = true →
      ∃ t : State, ends t 0 ∧ SMap.look t.graphs (256 * p + c.graph) = some g) ∧
    (∀ e, c.unload = false → s.readGraph c.image.toNat = .error e → ∃ t : State, ends t e ∧ t.graphs = s.graphs)) ∧
  (∀ (s : State) (ck : Nat) (q : Trig), (s.fe (ck / 8)).queue.find? (fun t => t.ctx == ck) = some q → SMap.look s.runs ck = none →
    s.mayStart ck = true → s.feMode (ck / 8) = 1 → s.ringBlocked (ck / 8) = false → s.quiesced (ck / 8) = false →
    (∀ g blocks, SMap.look s.graphs (256 * (ck / 8) + q.graph) = some g → q.patch = 0 → s.runHeld ck g = false →
      allSome (g.nodes.map (fun n => s.readVirt ck n.param.toNat (g.paramSize n))) = some blocks → g.used.all (s.sectionsMapped ck) = true →
      ∃ (t : State) (r : Run), exec (.evRunStart ck) s = .next t ∧ SMap.look t.runs ck = some r ∧ r.trig = q ∧ r.graph = g ∧
        r.nodes = g.nodes.map (fun _ => .waiting) ∧ r.slots.length = blocks.length ∧
        (t.fe (ck / 8)).queue = (s.fe (ck / 8)).queue.filter (fun x => x.seq != q.seq)) ∧
    (SMap.look s.graphs (256 * (ck / 8) + q.graph) = none →
      ∃ t : State, exec (.evRunStart ck) s = .next t ∧ t.runs = s.runs ∧
        (t.fe (ck / 8)).queue = (s.fe (ck / 8)).queue.filter (fun x => x.seq != q.seq))) ∧
  (∀ (s : State) (ck i : Nat) (rings : Bool) (r : Run) (n : GNode) (im : Image) (e : Entry), SMap.look s.runs ck = some r →
    s.mayStart ck = true → s.ringBlocked (ck / 8) = false → s.quiesced (ck / 8) = false →
    (List.range r.nodes.length).find? (fun i => r.nodeAt i == .waiting && (predsOf r.graph.nodes i).all (s.predReady r)) = some i →
    r.graph.nodes[i]? = some n → r.graph.images[n.image]? = some im → im.entries[n.entry]? = some e →
    s.launchStatus (nodeReq ck i r n im) rings = 0 →
    ∃ (t : State) (gk : Nat) (g : Grid), exec (.evNodeLaunch ck rings) s = .next t ∧ SMap.look s.grids gk = none ∧ SMap.look t.grids gk = some g ∧
      g.ctx = ck ∧ g.node = some (ck, i) ∧ g.nteam = n.teams ∧ g.num = ((SMap.look s.ctxs ck).map Ctx.gridNo).getD 0 ∧
      SMap.look t.runs ck = some { r with nodes := r.nodes.set i (.launched gk) })

/-- R11, R315, R316, R325, R327, R366, R385: an event ring's head moves on and its timer raises the interrupt; an inbound mailbox takes a word or
notes an overrun, an outbound one is emptied by its read, and overruns are cleared by ones; a plain register holds what the PF writes; a watchpoint's
control is written with HITS cleared; an access that is not served changes nothing; ones clear ERR_STATUS bits. -/
def Obligations.HostAccessEvents : Prop :=
  (∀ (s : State) (p via : Nat) (v : W64), s.inService = true → p < 16 → s.served p via = true →
    (field v 32 32 = 0 → (s.ring p).held = [] → (s.ring p).lost = [] → ∃ t : State, exec (.evRingHeadWrite p via v) s = .next t ∧
      t.ring p = { s.ring p with head := lo32 v } ∧ t = { s with rings := t.rings }) ∧
    (∀ n < 8,
      ((s.mbox p n).inFull = false → ∃ t : State, exec (.evMbInWrite p via n v) s = .next t ∧
        t.mbox p n = { s.mbox p n with inW := v, inFull := true } ∧ t = { s with mb := t.mb }) ∧
      ((s.mbox p n).inFull = true → ∃ t : State, exec (.evMbInWrite p via n v) s = .next t ∧
        t.mbox p n = { s.mbox p n with ovr := true } ∧ t = { s with mb := t.mb }) ∧
      (∃ t : State, exec (.evMbOutRead p via n) s = .next t ∧ t.mbox p n = { s.mbox p n with outFull := false } ∧ t = { s with mb := t.mb }) ∧
      (field v 24 40 = 0 → ∃ t : State, exec (.evMbStatClear p via v) s = .next t ∧
        t.mbox p n = { s.mbox p n with ovr := (s.mbox p n).ovr && !v.getLsbD (16 + n) } ∧ t = { s with mb := t.mb })) ∧
    (∀ k n (c : Ctx), k < 8 → n < 4 → SMap.look s.ctxs (8 * p + k) = some c → field v 48 16 = 0 → field v 14 18 = 0 → field v 4 4 = 0 →
      ∃ t : State, exec (.evWatchCtlWrite (8 * p + k) via n v) s = .next t ∧
        SMap.look t.ctxs (8 * p + k) = some { c with watchC := c.watchC.set n (v &&& 0x3F0F) } ∧ t = { s with ctxs := t.ctxs }) ∧
    (∀ rings, via = 0 → ∃ t : State, exec (.evRegisterWrite 0 0 (0x100000 + 0x10000 * p + 0x60) v rings) s = .next t ∧ (t.fe p).resImage = v ∧
      t.fe p = { s.fe p with resImage := v } ∧ t = { s with fes := t.fes })) ∧
  (∀ (s : State) (k at_ : Nat), (s.ring k).firstAt = some at_ → (s.ring k).ctime ≠ 0 → at_ + 84000 * (s.ring k).ctime ≤ s.now →
    ∃ t : State, exec (.evRingInterruptTimer k) s = .next t ∧ t = { s with rings := t.rings } ∧ (t.ring k).since = 0 ∧ (t.ring k).firstAt = none ∧
      (t.ring k).irqs = (s.ring k).irqs + (if (s.ring k).ctl.getLsbD 36 then 1 else 0)) ∧
  (∀ (s : State) (via vf off size : Nat), exec (.evUnsupportedRequest via vf off size) s = .next s) ∧
  (∀ (s : State) (v : W64), s.off = false → field v 13 19 = 0 → ∃ t : State, exec (.evErrStatusClear v) s = .next t ∧
    (∀ k < 16, (t.csrGet 0x3021).getLsbD k = ((s.csrGet 0x3021).getLsbD k && !v.getLsbD k)))

/-- R329, R330, R332, R333: the SPDM responder answers each message in its order and refuses one out of order; a session is opened, kept and closed;
an interface is locked, started and stopped, a stop erasing the partition's channel groups, and enters ERROR when its stream's integrity fails; a
request in a wrong state changes nothing; clearing VF Enable removes every VF. That the messages follow SPDM 1.2 in this order is the model's
(PRESUMED, assumption 10). -/
def Obligations.SecurityEvents : Prop :=
  (∀ s : State, s.off = false →
    let k := s.spdm
    let replies := fun (e : Instr) (q : Spdm) (r : List Nat) => exec e s = .next { s with spdm := { q with reply := r } }
    let tells := fun (e : Instr) (code : Nat) => ∃ r, replies e k (code :: r)
    replies .evGetVersion { phase := 1, secure := k.secure } [0x04, 0x12] ∧
    (1 ≤ k.phase → replies .evGetCapabilities { k with phase := 2 } [0x61]) ∧
    (∀ named : List SpdmAlg, 2 ≤ k.phase →
      let offered := (.rsassaPss3072 ∈ named ∨ .rsassaPkcs13072 ∈ named) ∧ .sha256 ∈ named ∧ .ffdhe3072 ∈ named ∧ .aes256gcm ∈ named
      (offered → replies (.evNegotiateAlgorithms named) { k with phase := 3 } [0x63]) ∧
      (¬offered → replies (.evNegotiateAlgorithms named) k [0x7F, 7])) ∧
    (k.phase < 3 → ∀ e ∈ [Instr.evGetDigests, .evGetCertificate 0 0 0, .evChallenge 0 0, .evGetMeasurements 1, .evKeyExchange 0, .evFinish true,
      .evHeartbeat, .evKeyUpdate, .evEndSession, .evIdeKm 1 true], replies e k [0x7F, 4]) ∧
    (3 ≤ k.phase →
      tells .evGetDigests 0x01 ∧ (∀ off len, tells (.evGetCertificate 0 off len) 0x02) ∧ (∀ nonce, tells (.evChallenge 0 nonce) 0x03) ∧
      (∀ i m, s.measurement i = some m → replies (.evGetMeasurements i) k (0x60 :: i :: m)) ∧
      (∀ slot, slot ≠ 0 → (∀ off len, replies (.evGetCertificate slot off len) k [0x7F, 1]) ∧ replies (.evKeyExchange slot) k [0x7F, 1]) ∧
      replies (.evKeyExchange 0) { k with session := 1 } [0x64] ∧
      (k.session = 1 → replies (.evFinish true) { k with session := 2, keyGen := 0 } [0x65] ∧ replies (.evFinish false) { k with session := 0 } [0x7F, 1]) ∧
      (k.session = 2 → replies .evHeartbeat k [0x68] ∧ replies .evKeyUpdate { k with keyGen := k.keyGen + 1 } [0x69] ∧
        replies .evEndSession { k with session := 0 } [0x6C] ∧ (∀ sec, replies (.evIdeKm 0 sec) { k with secure := sec } [0x7E, 0]) ∧
        (∀ p sec, p < 16 → ∃ t : State, exec (.evIdeKm (p + 1) sec) s = .next t ∧ (t.fe p).secure = (sec && (s.fe p).vf) ∧
          t = { s with spdm := t.spdm, fes := t.fes })))) ∧
  (∀ (s : State) (p : Nat), p < 16 → (s.fe p).vf = true →
    let state := fun (t : State) (n : Nat) => t.fe p = { s.fe p with tdi := n } ∧ t = { s with fes := t.fes }
    let wrong := fun (e : Instr) => exec e s = .next { s with spdm := { s.spdm with reply := [0x7E, 0x7F] } }
    ((s.fe p).tdi = 0 → s.mg.cause = 0 → ∃ t : State, exec (.evLockInterface p) s = .next t ∧ state t 1) ∧
    ((s.fe p).tdi ≠ 0 → wrong (.evLockInterface p)) ∧
    ((s.fe p).tdi = 1 → (s.fe p).secure = true → ∃ t : State, exec (.evStartInterface p) s = .next t ∧ state t 2) ∧
    ((s.fe p).tdi ≠ 1 → wrong (.evStartInterface p)) ∧
    ((s.fe p).tdi ≠ 0 → ∃ t : State, exec (.evStopInterface p) s = .next t ∧ (t.fe p).tdi = 0 ∧
      (∀ a, t.byte a = if (s.partChan p).getLsbD (a / 2 ^ 34) then 0 else s.byte a) ∧ t.sr = s.sr ∧ t.v = s.v ∧ t.csr = s.csr) ∧
    ((s.fe p).tdi = 0 → wrong (.evStopInterface p)) ∧
    ((s.fe p).tdi ≠ 3 → ∃ t : State, exec (.evIdeIntegrityFailure (p + 1)) s = .next t ∧ (t.fe p).tdi = 3 ∧ (t.fe p).secure = false)) ∧
  (∀ (s : State) (p : Nat), p < 16 → (s.fe p).vf = false → (s.fe p).tdi = 3 → ∃ t : State, exec (.evStopInterface p) s = .next t ∧
    (t.fe p).tdi = 0 ∧ ∀ a, t.byte a = if (s.partChan p).getLsbD (a / 2 ^ 34) then 0 else s.byte a) ∧
  (∀ s : State, s.off = false → s.mg.cause = 0 → s.rsz = none →
    ∃ t : State, exec .evVfEnableClear s = .next t ∧ t.vfClear = false ∧
      ∀ p < 16, (t.fe p).vf = false ∧ ((s.fe p).vf = true → (t.fe p).tdi = 3 ∧ ∀ r < 4, t.csrGet (0x1000 + 0x100 * p + r) = 0))

/-- R248, R335, R336: a port's control register and link; a peer's write, a RoCEv2 SEND, an RDMA write and an RDMA read of a context's memory, and
what answers a request that names no enabled queue pair, a key out of range or a full receive ring. -/
def Obligations.PortEvents : Prop :=
  (∀ (s : State) (k : Nat) (v : W64), k < 16 → s.off = false → field v 2 2 = 0 → field v 6 2 = 0 → field v 16 48 = 0 → field v 0 2 ≠ 3 →
    field v 4 2 ≠ 3 →
    (((s.port k).link = 2 → field v 0 2 = (s.port k).mode) → ∃ t : State, exec (.evPortCtlWrite k v) s = .next t ∧
      t.port k = { s.port k with mode := field v 0 2, rate := field v 4 2 } ∧ t = { s with ports := t.ports }) ∧
    ((s.port k).link = 2 → field v 0 2 ≠ (s.port k).mode → exec (.evPortCtlWrite k v) s = .next s)) ∧
  (∀ (s : State) (k l : Nat), k < 16 → l < 3 → ∃ t : State, exec (.evPortLinkChange k l) s = .next t ∧
    t.port k = { s.port k with link := l } ∧ t = { s with ports := t.ports }) ∧
  (∀ (s : State) (port ck va : Nat) (bs : List Byte) (pas : List Nat), s.physRange ck true va bs.length = some pas → pas.Nodup →
    let lands := fun (e : Instr) => ∃ t : State, exec e s = .next t ∧ t.netOut = (0, []) ∧ (∀ x ∈ pas.zip bs, t.byte x.1 = x.2) ∧
      (∀ a, a ∉ pas → t.byte a = s.byte a) ∧ t.sr = s.sr ∧ t.v = s.v ∧ t.threads = s.threads
    ((s.port port).mode = 2 → (s.port port).link = 2 → s.virtHeld ck va bs.length = false → s.live ck = true → s.partPorts (ck / 8) / 2 ^ port % 2 = 1 →
      lands (.evPeerWrite port ck va bs)) ∧
    (∀ qp key q, s.qpUp port qp = some q → q.ctx = ck → s.keyFor q key va bs.length true = true → s.virtHeld ck va bs.length = false → lands (.evRdmaWrite port qp key va bs))) ∧
  (∀ (s : State) (port qp : Nat),
    let send := fun (src : Nat) (bs : List Byte) => (Instr.evRoceSend port qp src bs, RoceReq.mk port qp 0 src 0 bs 0)
    let write := fun (key va : Nat) (bs : List Byte) => (Instr.evRdmaWrite port qp key va bs, RoceReq.mk port qp 1 key va bs 0)
    let read := fun (key va n : Nat) => (Instr.evRdmaRead port qp key va n, RoceReq.mk port qp 2 key va [] n)
    let answers := fun (e : Instr × RoceReq) (n : Nat) (bs : List Byte) =>
      exec e.1 s = .next { s with netOut := (n, bs), roce := s.roce.filter (fun q => q != e.2) }
    let waits := fun (e : Instr × RoceReq) => exec e.1 s = .next { s with roce := if s.roce.contains e.2 then s.roce else s.roce ++ [e.2] }
    (∀ q key va n, s.qpUp port qp = some q →
      (∀ bs, s.keyFor q key va n false = true → s.virtHeld q.ctx va n = false → s.readVirt q.ctx va n = some bs → answers (read key va n) 0 bs) ∧
      (s.keyFor q key va n false = true → s.virtHeld q.ctx va n = true → waits (read key va n)) ∧
      (s.keyFor q key va n false = false → answers (read key va n) 2 []) ∧
      (∀ bs, s.keyFor q key va bs.length true = true → s.virtHeld q.ctx va bs.length = true → waits (write key va bs)) ∧
      (∀ bs, s.keyFor q key va bs.length true = false → answers (write key va bs) 2 [])) ∧
    (s.qpUp port qp = none → ∀ src key va n bs, answers (send src bs) 4 [] ∧ answers (write key va bs) 4 [] ∧ answers (read key va n) 4 []) ∧
    (∀ q src bs, s.qpUp port qp = some q → q.mtu < bs.length → answers (send src bs) 3 []) ∧
    (∀ q src bs c, s.qpUp port qp = some q → bs.length ≤ q.mtu → s.virtHeld q.ctx q.count 8 = false → s.readVirt q.ctx q.count 8 = some c →
      let free := decide ((q.arrived + 2 ^ 64 - ofLeBytes c) % 2 ^ 64 < q.entries)
      let base := q.ring + (q.mtu + 64) * (q.arrived % q.entries)
      let held := s.virtHeld q.ctx base bs.length || s.virtHeld q.ctx (base + q.mtu) 16
      (free = false → answers (send src bs) 1 []) ∧ (free = true → held = true → waits (send src bs)) ∧
      (∀ p1 p2, free = true → held = false → s.physRange q.ctx true base bs.length = some p1 → s.physRange q.ctx true (base + q.mtu) 16 = some p2 →
        (p1 ++ p2).Nodup → ∃ t : State, exec (.evRoceSend port qp src bs) s = .next t ∧ t.netOut = (0, []) ∧
          SMap.look t.qps (4096 * port + qp) = some { q with arrived := (q.arrived + 1) % 2 ^ 64 } ∧ (∀ x ∈ p1.zip bs, t.byte x.1 = x.2) ∧
          (∀ x ∈ p2.zip (leBytes 4 bs.length ++ leBytes 4 src ++ leBytes 8 (q.arrived + 1)), t.byte x.1 = x.2) ∧
          (∀ a, a ∉ p1 ++ p2 → t.byte a = s.byte a))))

/-- R6, R336, R391, R393, R395, R415: the management mailbox's commands with their results; a reset, power lost and restored, and the shutdown at 115
°C. A stored image that fails step 1 holds the module there with cause 1; a module in hold stays in it at MODULE_RESET (assumption 101). The summary in STATUS, and the step and cause that a thermal shutdown shows,
are free (assumption 3). -/
def Obligations.ManagementEvents : Prop :=
  (∀ s : State, s.mg.commit = false → s.off = false →
    let m := s.mg
    let done := fun (t : State) (r n : Nat) => t.mg.result = r ∧ t.mg.outLen = n
    (∃ t : State, exec .evStatus s = .next t ∧ t.mg.result = 0 ∧ 8 ≤ t.mg.outLen ∧ t.mg.outLen ≤ 3840 ∧
      t.mg.data.take 8 = leBytes 8 (s.csrGet 0x3021).toNat ∧ t = { s with fc := t.fc, mg := t.mg }) ∧
    (∀ off, off ≤ m.log.length → ∃ t : State, exec (.evLog off) s = .next t ∧ done t 0 (min 3840 (m.log.length - off)) ∧
      t.mg.data.take t.mg.outLen = (m.log.drop off).take 3840 ∧ t = { s with mg := t.mg }) ∧
    (∀ n, n ≤ 2 ^ 25 → ∃ t : State, exec (.evFwBegin n) s = .next t ∧ done t 0 0 ∧ t.mg.staging = some (n, []) ∧ t = { s with mg := t.mg }) ∧
    (∀ n len bs, m.staging = some (len, bs) → n ≤ 3840 → bs.length + n ≤ len → ∃ t : State, exec (.evFwChunk n) s = .next t ∧ done t 0 0 ∧
      t.mg.staging = some (len, bs ++ m.data.take n) ∧ t = { s with mg := t.mg }) ∧
    (∀ len bs, m.staging = some (len, bs) → bs.length = len → exec .evFwCommit s = .next { s with mg := { m with commit := true } }) ∧
    (m.staging = none → (∃ t : State, exec .evFwCommit s = .next t ∧ done t 3 0) ∧ ∀ n, ∃ t : State, exec (.evFwChunk n) s = .next t ∧ done t 3 0) ∧
    (m.cause = 0 →
      (∀ k q, qpOf (m.data.take 128) = some (k, q) → (s.port (k / 4096)).mode = 1 → s.live q.ctx = true →
        ∃ t : State, exec .evQpSet s = .next t ∧ done t 0 0 ∧ SMap.look t.qps k = some q ∧ t = { s with mg := t.mg, qps := t.qps }) ∧
      (∀ a, a / 2 ^ 12 % 16 = 0 → (SMap.look s.qps (4096 * (a / 2 ^ 16) + a % 4096)).isSome = true → ∃ t : State, exec (.evQpClear a) s = .next t ∧
        done t 0 0 ∧ SMap.look t.qps (4096 * (a / 2 ^ 16) + a % 4096) = none ∧
        (∀ x ∈ t.roce, 4096 * x.port + x.qp ≠ 4096 * (a / 2 ^ 16) + a % 4096) ∧
        ((∃ x ∈ s.roce, 4096 * x.port + x.qp = 4096 * (a / 2 ^ 16) + a % 4096) → t.netOut = (5, [])) ∧
        t = { s with mg := t.mg, qps := t.qps, roce := t.roce, netOut := t.netOut }) ∧
      (let b := m.data.take 32
       let ck := 8 * blkByte b 4 + blkByte b 5
       blkByte b 4 < 16 → blkByte b 5 < 8 → blkByte b 6 < 4 → blkByte b 7 = 0 → zerosAt b 24 8 = true → blkField b 8 8 + blkField b 16 8 ≤ 2 ^ 48 →
         s.live ck = true → ∃ t : State, exec .evKeySet s = .next t ∧ done t 0 0 ∧ t = { s with mg := t.mg, rkeys := t.rkeys } ∧
           SMap.look t.rkeys (blkField b 0 4) = some { ctx := ck, read := decide (blkByte b 6 % 2 = 1), write := decide (blkByte b 6 / 2 = 1),
                                                       va := blkField b 8 8, len := blkField b 16 8 }) ∧
      (∀ a, (SMap.look s.rkeys a).isSome = true → ∃ t : State, exec (.evKeyClear a) s = .next t ∧ done t 0 0 ∧ SMap.look t.rkeys a = none ∧
        t = { s with mg := t.mg, rkeys := t.rkeys })) ∧
    (m.cause ≠ 0 → ∀ e ∈ [Instr.evQpSet, .evQpClear 0, .evKeySet, .evKeyClear 0], ∃ t : State, exec e s = .next t ∧ done t 3 0)) ∧
  (∀ s : State, s.mg.commit = true →
    let b := (s.mg.staging.map Prod.snd).getD []
    let m := { s.mg with commit := false, outLen := 0 }
    exec .evFwCommitDone s = .next { s with mg := if fwValid s.mg.fused b = true
      then { m with result := 0, stored := { good := true, ver := blkField b 4 4, digest := (sha256 b).take 8 } } else { m with result := 4 } }) ∧
  (∀ (s : State) (a : AssayArg) (e : Instr),
    (e = .evReset a ∧ s.off = false ∧ s.mg.commit = false) ∨ (e = .evModuleReset a ∧ s.off = false ∧ s.mg.cause = 0) ∨ (e = .evPowerOn a ∧ s.off = true) →
    ∃ t : State, exec e s = .next t ∧ t.off = false ∧ t.mem = [] ∧ t.ctxs = [] ∧ t.grids = [] ∧ t.teams = [] ∧ t.threads = [] ∧ t.groups = [] ∧
      (s.mg.stored.good = false → t.mg.step = 1 ∧ t.mg.cause = 1 ∧ ∀ k < 1056, (t.physAt k).on = false) ∧
      (s.mg.stored.good = true → t.mg.running = s.mg.stored ∨ a.fail = some 1)) ∧
  (∀ (s : State) (a : AssayArg), s.off = false → s.mg.cause ≠ 0 → ∃ t : State, exec (.evModuleReset a) s = .next t ∧ t.mg.step = s.mg.step ∧
    t.mg.cause = s.mg.cause ∧ t.mem = [] ∧ t.ctxs = [] ∧ t.threads = [] ∧ ∀ k < 1056, (t.physAt k).on = false) ∧
  (∀ s : State, s.off = false → ∃ t : State, exec .evPowerLoss s = .next t ∧ t.off = true ∧ t.mem = [] ∧ t.threads = [] ∧ t.marks = s.recovered ∧
    t.host = s.host ∧ t.mg.stored = { s.mg.stored with good := s.mg.stored.good &&
      !(s.mg.commit && fwValid s.mg.fused ((s.mg.staging.map Prod.snd).getD [])) }) ∧
  (∀ (s : State) (k temp : Nat), 11500 ≤ temp → s.off = false → s.mg.cause = 0 →
    ∃ t : State, exec (.evThermalShutdown k temp) s = .next t ∧ t.mg.cause ≠ 0 ∧ ∀ j < 1056, (t.physAt j).on = false)

/-- R6, R369 to R371, R373, R375 to R379, R408, R419: the module's power. A heated cluster is held and let go; a failed phase, a suspect bump group
and a canary change its cap, its offset or its highest level; a power-up ramps where the inrush fits, waits or ramps slowly, and ends at level 1; a
risen voltage lets the granted level in; a power-interval boundary changes every cluster's permits as R378 says; and a die's market never grants more
current than its budget where level 1 fits it. Temperatures, drops and currents are measurements that the event brings; a group's third droop in consecutive intervals makes it suspect. -/
def Obligations.PowerEvents : Prop :=
  (∀ (s : State) (k temp : Nat), (s.physAt k).on = true →
    let p := s.physAt k
    let held := fun (n : Nat) => ∃ t : State, exec (.evThermalStep k temp) s = .next t ∧ t.physAt k = { p with hold := n, cool := 0 } ∧
      t = { s with phys := t.phys, elog := t.elog, rings := t.rings, host := t.host }
    (10500 < temp → p.hold < 2 → held 2) ∧ (10000 < temp → temp ≤ 10500 → p.hold = 0 → held 1) ∧
    (temp ≤ 10000 → exec (.evThermalStep k temp) s = .next s)) ∧
  (∀ (s : State) (k temp : Nat), 100 ≤ (s.physAt k).cool →
    let free := fun (n : Nat) => ∃ t : State, exec (.evThermalRelease k temp) s = .next t ∧ t.physAt k = { s.physAt k with hold := n, cool := 0 }
    ((s.physAt k).hold = 2 → free 1) ∧ ((s.physAt k).hold = 1 → free 0)) ∧
  (∀ (s : State) (k phase : Nat), phase < 4 → (s.physAt k).on = true → (s.physAt k).failed.testBit phase = false →
    let p := s.physAt k
    ∃ t : State, exec (.evPhaseFail k phase) s = .next t ∧
      ((t.physAt k).failed, (t.physAt k).phase, (t.physAt k).cap) =
        (p.failed ||| 2 ^ phase, p.phase - 2 ^ phase, if p.failed ≠ 0 then 3 else 1) ∧
      (p.failed ≠ 0 → p.cap ≠ 3 → s.logOf k < 1024 → s.physOf (s.logOf k) = k → (t.cluster (s.logOf k)).level ≤ 5) ∧
      (s.logOf k < 1024 → (t.cluster (s.logOf k)).lease = none) ∧
      (p.failed ≠ 0 → p.cap ≠ 3 → s.logOf k < 1024 → s.physOf (s.logOf k) = k → t.calls.any (fun q => q.clus == s.logOf k) = true)) ∧
  (∀ (s : State) (k group drop : Nat), group < 8 → 15 < drop → (s.physAt k).on = true →
    let p := s.physAt k
    let i := s.now / 840000
    ∃ t : State, exec (.evBumpSuspect k group drop) s = .next t ∧
      (∀ n, SMap.look p.droops group = some (i - 1, n) → 0 < i → SMap.look (t.physAt k).droops group = some (i, n + 1) ∧
        (n = 2 → ((t.physAt k).bump, (t.physAt k).cap) = (p.bump ||| 2 ^ group, if p.cap = 0 then 2 else p.cap)) ∧
        (n ≠ 2 → ((t.physAt k).bump, (t.physAt k).cap) = (p.bump, p.cap))) ∧
      (SMap.look p.droops group = none → SMap.look (t.physAt k).droops group = some (i, 1) ∧ (t.physAt k).bump = p.bump)) ∧
  (∀ (s : State) (k : Nat), (s.physAt k).on = true →
    let p := s.physAt k
    let w := min (p.canwarn + 1) 65535
    let top := max p.vset (if p.riseAt.isSome then p.vto else 0)
    ∃ t : State, exec (.evCanary k) s = .next t ∧
      (top ≤ 68 → t.physAt k = { p with canwarn := w, canofs := p.canofs + 2, vset := p.vset + 2, vto := p.vto + 2 }) ∧
      (68 < top → t.physAt k = { p with canwarn := w, lower := p.lower + 1 })) ∧
  (∀ (s : State) (k : Nat),
    let fits := s.inrushFits (physSector k)
    let waits := s.phys.any (fun e => physSector e.1 == physSector k && e.1 != k && e.2.inrush == 1)
    (s.wantsPower k = true → ∀ b, ∃ t : State, exec (.evClusterPowerUp k b) s = .next t ∧ t = { s with phys := t.phys } ∧
      (fits = false → t.physAt k = { s.physAt k with inrush := 1, upAt := s.now }) ∧
      (fits = true → waits = false → t.physAt k = { s.physAt k with inrush := 2, upAt := s.now, rampAt := s.now })) ∧
    ((s.physAt k).inrush = 1 → waits = false → fits = true → (s.now - (s.physAt k).upAt) % 84000 = 0 → s.now ≤ (s.physAt k).upAt + 3360000 →
      ∀ b, ∃ t : State, exec (.evInrushRecheck k b) s = .next t ∧
      t.physAt k = { s.physAt k with inrush := 2, rampAt := s.now } ∧ t = { s with phys := t.phys }) ∧
    ((s.physAt k).inrush = 1 → waits = false → s.slowRamp k = false → (s.physAt k).upAt + 3360000 ≤ s.now →
      ∃ t : State, exec (.evInrushSlow k) s = .next t ∧ t.physAt k = { s.physAt k with inrush := 3, rampAt := s.now }) ∧
    (∀ n, ((s.physAt k).inrush = 2 ∧ n = 168000) ∨ ((s.physAt k).inrush = 3 ∧ n = 1344000) → (s.physAt k).rampAt + n ≤ s.now →
      ∃ t : State, exec (.evRampEnd k) s = .next t ∧ (t.physAt k).on = true ∧ (t.physAt k).inrush = 0 ∧
        (s.logOf k < 1024 → s.physOf (s.logOf k) = k → (t.cluster (s.logOf k)).level = 1))) ∧
  (∀ (s : State) (c at_ : Nat), (s.physAt (s.physOf c)).riseAt = some at_ →
    let p := s.physAt (s.physOf c)
    at_ + 1200 * (p.vto - p.vset) ≤ s.now → ∃ t : State, exec (.evVoltageSettled c) s = .next t ∧
      t.physAt (s.physOf c) = { p with vset := p.vto, riseAt := none } ∧ (t.cluster c).level = (s.cluster c).next ∧ t.clusCyc c = s.clusCyc c ∧
      t = { s with phys := t.phys, clusters := t.clusters }) ∧
  (∀ (s : State) (ms : List Meas), s.interval < s.now / 840000 → s.charged ≤ s.interval → ∃ t : State, exec (.evPowerIntervalBoundary ms) s = .next t ∧
    t.interval = s.interval + 1 ∧ t.relDue = [] ∧ (∀ k, (t.mark k) = s.mark k) ∧ t.mem = s.mem ∧ t.v = s.v ∧
    (∀ c < 1024, (s.cluster c).dark = false →
      (t.cluster c).permits = (s.cluster c).permitsAfter (s.clusActive c) (s.permitCap c))) ∧
  (∀ (budget : Nat) (bs : List Bidder), (bs.map Bidder.c).Nodup → (∀ b ∈ bs, b.l = 1) → (bs.map (fun b => b.amps 1)).sum ≤ budget →
    ((clearMarket budget bs).map (fun b => b.amps b.l)).sum ≤ budget ∧ ∀ b ∈ clearMarket budget bs, b.l ≤ max 1 b.bid)

/-- R332, R368, R387 to R389, R392, R403, R405, R408 to R410, R415 to R417: anneal swaps, billet calls and their tests, wear, the record store,
refills, hallmarks and scrub. The clusters an anneal or a test leaves serving, resting, retired or dark; what a unit's touchmark gains in a
millisecond; what the journal keeps; what a partition's budget gains in an hour; and how a scrub pass goes on. Calibrations and stresses are
measurements that the event brings. -/
def Obligations.WearEvents : Prop :=
  (∀ (s : State) (d sec c k : Nat) (cal : List Nat) (past : List (Nat × Nat)), d < 4 → sec < 3 → (s.annealCtl d).getLsbD 0 = true →
    s.rsz = none → s.off = false → s.mg.cause = 0 → s.restNext (3 * d + sec) = some c →
    let z := 3 * d + sec
    (SMap.look s.swaps z = none → (SMap.look s.rotAt z).getD 0 + s.rotTicks d ≤ s.now → s.calls.any (fun q => s.clusSector q.clus == z) = false →
      s.resting z = some k → (s.physAt k).restAt + s.restTicks d ≤ s.now → ∃ t : State, exec (.evAnneal d sec cal past) s = .next t ∧
        SMap.look t.swaps z = some k ∧ (t.physAt k).vmin = cal ∧ (t.physAt k).canofs = 0 ∧ t = { s with swaps := t.swaps, rotAt := t.rotAt, phys := t.phys }) ∧
    (SMap.look s.swaps z = some k → s.calls.any (fun q => s.clusSector q.clus == z) = true →
      ∃ t : State, exec (.evAnneal d sec cal past) s = .next t ∧ SMap.look t.swaps z = none ∧ (t.physAt k).on = false ∧ t.serve = s.serve) ∧
    (SMap.look s.swaps z = some k → s.calls.any (fun q => s.clusSector q.clus == z) = false → (s.physAt k).on = true → (s.physAt k).inrush = 0 → s.swapReady c = true →
      ∃ t : State, exec (.evAnneal d sec cal past) s = .next t ∧ SMap.look t.swaps z = none ∧ t.physOf c = k ∧
        (t.physAt (s.physOf c)).state = 1 ∧ (t.physAt (s.physOf c)).on = false ∧ (k ≠ s.physOf c → (t.physAt k).state = 0))) ∧
  (∀ (s : State) (d : Nat) (q : Call), s.calls.any (fun q => q.begun && q.clus / 256 == d) = false →
    s.calls.find? (fun q => q.clus / 256 == d && (q.cause == 2 || s.rsz.isNone)) = some q →
    let begins := fun (cause : Nat) (k : Option Nat) => ∃ t : State, exec (.evBilletCall d) s = .next t ∧
      (∃ q' ∈ t.calls, q'.clus = q.clus ∧ q'.begun = true ∧ q'.cause = cause ∧ q'.phys = k) ∧ (t.cluster q.clus).lease = none
    (∀ k, s.nextBillet d = some k → begins q.cause (some k)) ∧ (s.nextBillet d = none → begins 6 none)) ∧
  (∀ (s : State) (d phases bumps : Nat) (cal : List Nat) (q : Call), s.calls.find? (fun q => q.begun && q.clus / 256 == d) = some q →
    (∀ k, q.phys = some k → (s.physAt k).on = true → (s.physAt k).inrush = 0 →
      (((List.range 4).filter (fun i => (phases % 16).testBit i)).length ≤ 1 → (∃ v, cal[10]? = some v ∧ v ≤ 70) →
        s.swapReady q.clus = true → ∃ t : State, exec (.evBilletTestDone d true ⟨phases, bumps, cal⟩) s = .next t ∧ t.physOf q.clus = k ∧
        (t.cluster q.clus).permits = s.permitCap q.clus ∧ (t.physAt (s.physOf q.clus)).state = 3 ∧ (∀ x ∈ t.calls, x.clus ≠ q.clus)) ∧
      (∀ pass, pass = false ∨ (cal[10]?).getD 71 > 70 ∨ 2 ≤ ((List.range 4).filter (fun i => (phases % 16).testBit i)).length →
        ∃ t : State, exec (.evBilletTestDone d pass ⟨phases, bumps, cal⟩) s = .next t ∧ (t.physAt k).state = 3 ∧ (t.physAt k).on = false ∧ t.serve = s.serve)) ∧
    (q.phys = none → s.swapReady q.clus = true → ∀ pass, ∃ t : State, exec (.evBilletTestDone d pass ⟨phases, bumps, cal⟩) s = .next t ∧
      (t.cluster q.clus).dark = true ∧ (t.physAt (s.physOf q.clus)).state = 3 ∧ (∀ x ∈ t.calls, x.clus ≠ q.clus))) ∧
  (∀ (s : State) (ms : List WearMeas), s.wearMs < s.now / 84000000 →
    ∃ t : State, exec (.evWearAccrual ms) s = .next t ∧ t.wearMs = s.wearMs + 1 ∧ t.mem = s.mem ∧
      (∀ u, unitOk u = true → s.accrues u = true → s.unitState u ≠ 3 → let m := s.mark u
        let x := s.wearOf ms u
        let n := m.accrue x.mv x.temp x.act x.mhz x.amps x.up
        (t.mark u).bti = n.bti ∧ (t.mark u).hci = n.hci ∧ (t.mark u).em = n.em ∧ (t.mark u).ms = m.ms + 1) ∧
      (∀ x ∈ ms, (ms.map WearMeas.unit).Nodup → s.wearOf ms x.unit = x) ∧
      (∀ u, s.accrues u = false ∨ s.unitState u = 3 → t.mark u = s.mark u)) ∧
  (∀ s : State,
    (s.jsec < s.powSec → ∃ t : State, exec .evJournalWrite s = .next t ∧ t.jsec = s.powSec ∧ t = { s with jmarks := t.jmarks, jsec := t.jsec } ∧
      (SMap.sorted s.marks = true → SMap.sorted s.jmarks = true →
        ∀ u m, SMap.look s.marks u = some m → SMap.look t.recovered u = some m)) ∧
    (s.jhour < s.powSec / 3600 → ∃ t : State, exec .evCheckpoint s = .next t ∧ t.recovered = s.marks ∧ t.jmarks = [] ∧ t.jhour = s.powSec / 3600 ∧
      t.hm.busy = true ∧ t.hm.seq = s.hm.seq + (if s.hm.busy then 0 else 1) ∧ t.hm.owed = s.hm.owed + (if s.hm.busy then 1 else 0)) ∧
    (∀ v : W64, s.off = false → field v 1 63 = 0 → v.getLsbD 0 = true → s.hm.busy = false →
      exec (.evHmCtlGen v) s = .next { s with hm := { s.hm with busy := true, seq := s.hm.seq + 1 } }) ∧
    (s.hm.busy = true → s.hm.owed = 0 → ∃ t : State, exec .evHallmarkDone s = .next t ∧
      t.hm = { s.hm with busy := false, bytes := s.hallmark s.hm.seq, shown := s.hm.seq
                         kept := ((s.hm.seq, s.hallmark s.hm.seq) :: s.hm.kept).take 128 }) ∧
    (s.hm.busy = true → 0 < s.hm.owed → ∃ t : State, exec .evHallmarkDone s = .next t ∧ t.hm.busy = true ∧ t.hm.seq = s.hm.seq + 1 ∧
      t.hm.shown = s.hm.seq ∧ t.hm.owed = s.hm.owed - 1)) ∧
  (∀ (s : State) (p : Nat), p < 16 → s.interval < s.now / 840000 → s.refillDue p = true →
    let u := s.boundaryCharges
    let cs := (upFrom (u.partBase p) (u.partLimit p - u.partBase p)).filter (fun c => !(u.cluster c).dark)
    let r : Int := (cs.map (fun c => (u.refHour : Int) - ((SMap.read 0 u.strain c / 1024 : Nat) : Int))).foldl (· + ·) 0
    ∃ t : State, exec (.evBudgetRefill p) s = .next t ∧ t.budget p = max (-(2 ^ 63 - 1)) (min (2 ^ 63 - 1) (u.budget p + r)) ∧
      SMap.read 0 t.hours p = s.powSec / 3600 ∧ t.refillDue p = false) ∧
  (∀ (s : State) (u : Nat), s.scrubEn = true →
    let q := s.scrubOf u
    let sec := u * 2 ^ 29 + q.pos
    (u < 64 → SMap.look s.bad sec = none → q.pos + 1 ≠ groupSectors → ∃ t : State, exec (.evScrubRead u [] false) s = .next t ∧
      (t.scrubOf u).pos = q.pos + 1 ∧ (t.scrubOf u).held = q.held ∧ t = { s with scrubs := t.scrubs }) ∧
    (∀ e : ErrArg, u < 64 → e.kind = 0 → SMap.look s.bad sec = none → q.pos + 1 ≠ groupSectors →
      ∃ t : State, exec (.evScrubRead u [e] false) s = .next t ∧ (t.scrubOf u).held = some (sec, s.bytesAt (32 * sec) 32) ∧
        (t.csrGet 0x3021).getLsbD 0 = true) ∧
    (64 ≤ u → ∃ t : State, exec (.evScrubRead u [] false) s = .next t ∧ (t.scrubOf u).pos = q.pos + 1 ∧ t = { s with scrubs := t.scrubs }) ∧
    ((SMap.look s.scrubs u).isSome = true →
      (q.start + q.limit < s.now → ∃ t : State, exec (.evScrubDeadline u) s = .next t ∧ (t.csrGet 0x3021).getLsbD 10 = true ∧
        t = { s with csr := t.csr }) ∧
      ∀ behind, ∃ t : State, exec (.evScrubTakeover u behind) s = .next t ∧ t = { s with scrubs := t.scrubs } ∧
        (t.scrubOf u).take = (if u < 64 then s.scrubBehind q else behind))) ∧
  (∀ (s : State) (u sec : Nat) (bs : List Byte), (s.scrubOf u).held = some (sec, bs) →
    ∃ t : State, exec (.evScrubWriteback u) s = .next t ∧ (t.scrubOf u).held = none ∧ (∀ a, t.byte a = s.byte a) ∧ t.csr = s.csr)

/-- R341 to R343, R345 to R353, R358, R359, R361: a direct write of an idle partition's register, a resize from its request to its end with what
refuses it, the invalidate queue, the hint check and the moving of L2 ways. -/
def Obligations.PartitionEvents : Prop :=
  (∀ (s : State) (p r : Nat) (v : W64), p < 16 → r ≤ 4 → s.inService = true →
    let sel := 0x1000 + 0x100 * p + r
    let s1 := s.csrSet sel (s.partValue p r v)
    let ok := !partReserved r v && !(List.range 8).any (fun n => s.live (8 * p + n)) && s.feMode p == 0 && s.rsz.isNone && (s.fe p).tdi == 0
      && rangeOk (s1.partBase p) (s1.partLimit p) && s1.partSound p && s1.sharingOk && !s1.gainsHeld s p
    (ok = true → ∃ t : State, exec (.evPartitionDirectWrite p r v) s = .next t ∧ t.csr = s1.csr ∧
      (∀ g < 64, (s.partChan p).getLsbD g = true → (s1.partChan p).getLsbD g = false → ∀ a, a / 2 ^ 34 = g → t.byte a = 0) ∧
      (∀ a, ((s.partChan p).getLsbD (a / 2 ^ 34) = false ∨ (s1.partChan p).getLsbD (a / 2 ^ 34) = true) → t.byte a = s.byte a)) ∧
    (ok = false → ∃ t : State, exec (.evPartitionDirectWrite p r v) s = .next t ∧ t = { s with csr := t.csr } ∧
      (t.csrGet 0x3021).getLsbD 12 = true ∧ ∀ sel', sel' ≠ 0x3021 → t.csrGet sel' = s.csrGet sel')) ∧
  (∀ (s : State) (p : Nat) (v : W64), p < 16 → s.inService = true → field v 48 16 = 0 → field v 2 5 = 0 →
    let refused := fun (t : State) (w : Nat) => SMap.look t.rstat p = some (BitVec.ofNat 64 w) ∧ t.csr = s.csr ∧ t.mem = s.mem
    (field v 0 2 = 0 → s.rsz = none → ∃ (t : State) (r : Resize), exec (.evResizeRequest p v) s = .next t ∧ t.rsz = some r ∧ r.part = p ∧ r.state = 1 ∧
      r.addr = field v 7 41 * 128 ∧ r.at_ = s.now ∧ t = { s with rsz := t.rsz, rstat := t.rstat }) ∧
    (∀ q, field v 0 2 = 0 → s.rsz = some q → q.part ≠ p → ∃ t : State, exec (.evResizeRequest p v) s = .next t ∧ t.rsz = some q ∧ refused t 0x120) ∧
    (∀ q, field v 0 2 = 1 → s.rsz = some q → q.part = p → q.state ≤ 2 → ∃ t : State, exec (.evResizeCancel p v) s = .next t ∧ t.rsz = none ∧ refused t 0xA20)) ∧
  (∀ (s : State) (r : Resize), s.rsz = some r →
    let at_ := fun (e : Instr) (n : Nat) => ∃ (t : State) (q : Resize), exec e s = .next t ∧ t.rsz = some q ∧ q.state = n ∧ q.part = r.part
    let refused := fun (e : Instr) (cause fe seg : Nat) => ∃ t : State, exec e s = .next t ∧ t.rsz = none ∧ t.csr = s.csr ∧
      SMap.look t.rstat r.part = some (BitVec.ofNat 64 (0x20 + 256 * cause + 65536 * fe + 2 ^ 24 * seg))
    let free := s.ringBlocked r.part = false ∧ (r.host = true → s.ringBlocked 16 = false) ∧ (r.host = false → s.virtHeld r.ctx r.addr 128 = false)
    (r.state = 1 → ¬free → exec .evResizeQuiescing s = .next s) ∧
    (r.state = 1 → free → (s.readDesc r).bind descEntries = none → refused .evResizeQuiescing 2 0 0) ∧
    (∀ es dl tag, r.state = 1 → free → (s.readDesc r).bind descEntries = some (es, dl, tag) →
      (s.resizeInvalid r.part es = true → refused .evResizeQuiescing 2 0 0) ∧
      (s.gainsBack es = true → r.tenant = false → refused .evResizeQuiescing 2 0 0) ∧
      (s.resizeInvalid r.part es = false → (s.gainsBack es && !r.tenant) = false →
        (s.resizePrivilege r es = true → refused .evResizeQuiescing 3 0 0) ∧
        (s.resizePrivilege r es = false → s.resizeLimits es = none → s.resizeMemory es = false → at_ .evResizeQuiescing 2))) ∧
    (r.state = 2 → s.resizeBlock r = none → at_ .evResizeMigrating 3) ∧
    (∀ cause fe seg, r.state = 2 → r.since + 84000 * r.dl ≤ s.now → s.resizeBlock r = some (cause, fe, seg) → refused .evResizeDeadline cause fe seg) ∧
    (r.state = 3 → (r.ents.map REnt.part).Nodup → at_ .evResizeRemapping 4 ∧
      ∀ t : State, exec .evResizeRemapping s = .next t → ∀ e ∈ r.ents, t.csrGet (0x1001 + 0x100 * e.part) = e.chan ∧
        t.csrGet (0x1000 + 0x100 * e.part) = BitVec.ofNat 64 (e.base + 2 ^ 16 * e.limit) ∧ t.csrGet (0x1002 + 0x100 * e.part) = e.colour) ∧
    (r.state = 4 → r.colours = true → at_ .evResizeRehashing 5) ∧
    ((r.state = 4 ∧ r.colours = false) ∨ r.state = 5 → at_ .evResizeShootdown 6) ∧
    (r.state = 6 → r.invs ≤ s.invDone → s.staleDrained (fun ck _ => r.ents.any (fun x => x.part == ck / 8)) = true → (r.ents.map REnt.part).Nodup →
      ∃ t : State, exec .evResizeDone s = .next t ∧ t.rsz = none ∧
        ∀ e ∈ r.ents, field (t.csrGet (0x1004 + 0x100 * e.part)) 32 4 = (field (s.csrGet (0x1004 + 0x100 * e.part)) 32 4 + 1) % 16)) ∧
  (∀ s : State,
    (∀ v : W64, s.inService = true → field v 48 16 = 0 → field v 0 5 = 0 → ∃ t : State, exec (.evInvQueue v) s = .next t ∧
      (s.invQ.length < 64 → t = { s with invQ := t.invQ } ∧ t.invQ.map InvCmd.addr = s.invQ.map InvCmd.addr ++ [v.toNat]) ∧
      (64 ≤ s.invQ.length → t = { s with invDrop := (s.invDrop + 1) % 65536 })) ∧
    (∀ c cs, s.invRun = none → s.invQ = c :: cs → s.ringBlocked 16 = false →
      let got := if c.host then s.dmaRead c.addr 32 else s.readVirt c.ctx c.addr 32
      (∀ b, got = some b → invOk b = true → s.ringBlocked (blkByte b 0) = false → ∃ (t : State) (r : InvRun), exec .evInvCommandStart s = .next t ∧
        t.invQ = cs ∧ t.invRun = some r ∧ r.fe = blkByte b 0 ∧ r.ctx = blkByte b 1 ∧ r.kind = blkByte b 2 ∧ r.start = blkField b 8 8 ∧
        r.len = blkField b 16 8 ∧ t.invDone = s.invDone) ∧
      ((got = none ∨ ∃ b, got = some b ∧ invOk b = false) → ∃ t : State, exec .evInvCommandStart s = .next t ∧ t.invQ = cs ∧ t.invRun = none ∧
        t.invDone = s.invDone + 1 ∧ t.cores = s.cores)) ∧
    (∀ r, s.invRun = some r → s.staleDrained r.hits = true → ∃ t : State, exec .evInvDone s = .next t ∧ t.invRun = none ∧
      t.invDone = s.invDone + 1 ∧ ∀ k ck c, SMap.look t.cores k = some c → c.ctx = some ck → ∀ e ∈ c.exts, e.stale = true → r.hits ck e = false)) ∧
  (∀ (s : State) (gk range : Nat) (g : Grid) (r : ORange) (c : HintCnt), SMap.look s.grids gk = some g → g.ranges[range]? = some r →
    g.done = false → SMap.look s.hinted (16 * gk + range) = none → SMap.look s.hintCnt (16 * gk + range) = some c → s.hintWin < s.hintNow →
    65536 ≤ c.lookups →
    let remote := c.lookups - (c.dies[s.rangeDie g.ctx r]?).getD 0
    ((r.reuse ≤ 1 ∧ c.lookups ≤ 2 * c.misses) ∨ (r.reuse = 3 ∧ 8 * c.misses ≤ c.lookups) ∨ 3 * c.lookups < 4 * remote) →
    ∀ a b e f, ∃ t : State, exec (.evHintMismatch gk range a b e f) s = .next t ∧ SMap.look t.hinted (16 * gk + range) = some () ∧
      t = { s with hinted := t.hinted, rings := t.rings, host := t.host }) ∧
  (∀ (s : State) (c p q a b x y : Nat), s.sharers c = [p, q] → b ≤ a → y < a → y < x → 2 < SMap.read 0 s.quota (16 * c + q) →
    SMap.read 0 s.movedAt c < s.wall / 1000000 →
    ∃ t : State, exec (.evQuotaRebalance c [a, b] [x, y]) s = .next t ∧ t = { s with quota := t.quota, movedAt := t.movedAt, l2 := t.l2 } ∧
      SMap.read 0 t.movedAt c = s.wall / 1000000 ∧
      SMap.read 0 t.quota (16 * c + p) = SMap.read 0 s.quota (16 * c + p) + 1 ∧
      SMap.read 0 t.quota (16 * c + q) = SMap.read 0 s.quota (16 * c + q) - 1 ∧
      ∀ k, k ≠ 16 * c + p → k ≠ 16 * c + q → SMap.read 0 t.quota k = SMap.read 0 s.quota k)

/-- R37, R40, R48: the word written for any well-formed instruction of the opcode map decodes to that instruction, with every operand at every value
its encoding admits. -/
def Obligations.EncodeThenDecode : Prop :=
  ∀ i : Instr, i.wf = true → i.op.isSome = true → ∃ w, encode i = [w] ∧ decodeWord w = .ok i

/-- R37, R40, R49: a word that decodes gives a well-formed instruction with the word's OP, and that instruction is written as that word: no two words
mean one instruction, and no bit of a word is ignored. -/
def Obligations.DecodeThenEncode : Prop :=
  ∀ (w : W64) (i : Instr), decodeWord w = .ok i → i.wf = true ∧ i.op = some (bits w 56 8) ∧ encode i = [w]

/-- R25, R33, R49: every state has a next state: no instruction, no event, no word of memory and no register value stops the machine, and a fault of
the model's own is never reached by a step. -/
def Obligations.StepAlwaysAnswers : Prop :=
  ∀ s : State, ∃ t : State, step s = .next t

/-- R13, R332: a step keeps the canonical form of physical memory: addresses rise strictly, and no listed byte is the zero that an unlisted one reads
as. The form is the model's (DESIGN CHOICE, assumption 6). -/
def Obligations.MemoryStaysCanonical : Prop :=
  ∀ s t : State, Memory.wf s.mem = true → step s = .next t → Memory.wf t.mem = true

/-- R30, R33, R49, R50, R75: a group's turn runs the instruction that the word at its PC decodes to, in the state that the turn's time makes, and what
follows by itself comes after (`settled`); a word that does not decode traps every thread of the group with the code of its fault, and nothing else of
the turn happens; an event's turn is that event; and a word placed by `withFetchWord` is what the next step runs. The schedule of turns is the model's
(DESIGN CHOICE, assumption 2). -/
def Obligations.StepRunsDecoded : Prop :=
  (∀ (s : State) (t : Turn) (rest : List Turn) (gid : Nat) (g : Group) (gr : Grid) (w : W64), s.agenda = t :: rest → t.act = .issue gid →
    let s1 := ({ s with agenda := rest }).pass t
    s1.mayIssue gid = true → SMap.look s1.groups gid = some g → s1.gridOfTeam g.team = some gr → s1.codeWord gr.code g.pc = some w →
    (∀ i, decodeWord w = .ok i →
      step s = settled (exec i { s1.updGroup gid (fun g => { g with turn := some s1.now }) with cur := some gid })) ∧
    (∀ e, decodeWord w = .error e → step s = settled (.next (s1.deliver (g.threads.map (fun th =>
      { th := th, code := match e with | .clause => 0x01 | .opcode => 0x02 | .encoding => 0x03, info := g.pc, rpc := g.head, entry := none })))))) ∧
  (∀ (s : State) (t : Turn) (rest : List Turn) (e : Instr), s.agenda = t :: rest → t.act = .event e → e.op = none → s.off = false →
    step s = settled (exec e (({ s with agenda := rest }).pass t))) ∧
  (∀ (w : Nat) (i : Instr), decodeWord (BitVec.ofNat 64 w) = .ok i →
    let s := State.reset.withFetchWord 64 w
    let s1 := ({ s with agenda := [] }).pass ⟨0, [], [], .issue 1⟩
    step s = settled (exec i { s1.updGroup 1 (fun g => { g with turn := some s1.now }) with cur := some 1 })) ∧
  (∀ (s : State) (t : Turn), (s.pass t).now = s.now + t.dt ∧
    (s.rsz = none → t.errs = [] → (∀ e ∈ s.grids, e.2.segs = []) → (s.pass t).mem = s.mem ∧ (s.pass t).v = s.v ∧ (s.pass t).sr = s.sr ∧
      (s.pass t).groups = s.groups ∧ (s.pass t).threads = s.threads ∧ (t.host = [] → s.hintCnt = [] → (s.pass t).host = s.host)))

/-- R31, R37 to R49: words written out from the encoding tables decode to the instructions they stand for, and words with an unassigned OP, GUARD 8, a
set reserved bit or an unaccepted field are refused. -/
def Obligations.DecodeWords : Prop :=
  decodeWord 0x4000203040010000 = .ok (.vadd ⟨.always, 2, 3, 4, 0, .s32, 0, false, false, false, false⟩) ∧
  decodeWord 0x1E00009000E00010 = .ok (.swr ⟨.always, 0, 9, 0x0E, 1⟩) ∧
  decodeWord 0xF900000004200000 = .ok (.trap ⟨.always, 0, 0, 0x42, 0⟩) ∧
  decodeWord 0xF700503000E00000 = .ok (.boost ⟨.always, 5, 3, 14, 0⟩) ∧
  decodeWord 0xFE00009150800000 = .ok (.syswr ⟨.always, 0, 9, 0x1508, 0⟩) ∧
  decodeWord 0 = .ok (.nop .always) ∧
  decodeWord 0x20A00FFFFFFB0000 = .ok (.bra ⟨.neg 1, 0, 0xFFFFFFB0, 0, 0⟩) ∧
  (decodeHeader 0xC70CFFFFC0000000).toOption.map (fun h => (h.count, h.waits)) = some (0, [7, 7, 7, 7, 7, 7]) ∧
  decodeWord 0xC70CFFFFC0000000 = .error .opcode ∧ decodeWord 0xFF00000000000000 = .error .opcode ∧
  decodeWord 0x4080203040010000 = .error .encoding ∧
  decodeWord 0xF900001004200000 = .error .encoding ∧ decodeWord 0xB00070409000E052 = .error .encoding

/-- R305, R317, R335, R342 to R344, R380, R381, R390, R406, R413, R423: the machine right after reset: the device registers at the reset values their
tables give; no context, grid, team, thread, group or operation; memory in canonical form, and each of its bytes reads zero (DESIGN CHOICE, assumption
6); general registers read zero (DESIGN CHOICE, assumption 1). -/
def Obligations.ResetState : Prop :=
  let s := State.reset
  s.csrGet 0x3010 = 0x3F ∧ s.csrGet 0x3020 = 0x3C000C01 ∧ s.csrGet 0x3030 = 0x00200008000A0890 ∧ s.csrGet 0x3021 = 0 ∧
  (∀ d < 4, s.csrGet (0x2000 + 0x100 * d) = 0x00000BB800400001 ∧ s.csrGet (0x2001 + 0x100 * d) = 64 ∧
    s.csrGet (0x2002 + 0x100 * d) = 0x181818 ∧ s.csrGet (0x2010 + 0x100 * d) = 0x0000000A00640101) ∧
  (∀ p < 16, s.csrGet (0x1020 + 0x100 * p) = 0x0A00 ∧ (∀ r < 5, s.csrGet (0x1000 + 0x100 * p + r) = 0) ∧ s.csrGet (0x1010 + 0x100 * p) = 0 ∧
    (s.port p).link = 0) ∧
  (∀ c < 1024, (s.cluster c).level = 10 ∧ (s.cluster c).permits = 64 ∧ (s.cluster c).lease = none) ∧
  s.ctxs = [] ∧ s.grids = [] ∧ s.teams = [] ∧ s.threads = [] ∧ s.groups = [] ∧ s.ops = [] ∧ s.rsz = none ∧ s.now = 0 ∧
  Memory.wf s.mem = true ∧ (∀ a, s.byte a = 0) ∧ (∀ th r, s.vget th r = 0) ∧ (∀ wk r, s.sget wk r = 0)
end

