-- ==== Sys2Proof/Laws/Coding.lean ====
section
/-!
SUPPORT. The OP field of a word: each format writes it in bits [63:56] (R37).
-/
namespace Sys2Proof.Laws.Coding

/-- A word is known to carry an OP by its top eight bits. -/
theorem op_of_bits {op : BitVec 8} {w : W64} (h : ∀ k < 8, w.getLsbD (56 + k) = op.getLsbD k) : bits w 56 8 = op := by
  apply BitVec.eq_of_getLsbD_eq
  intro k hk
  rw [bits, BitVec.getLsbD_extractLsb', h k hk]
  simp [hk]

/-- The OP of a NOP (R48). -/
theorem nop_op (g : Guard) : bits (nopWord g) 56 8 = 0 := by
  refine op_of_bits fun k hk => ?_
  simp only [nopWord, BitVec.getLsbD_append]
  repeat rw [if_neg (by omega)]
  congr 1; omega

/-- The OP of a word of format Vr. -/
theorem vr_op (op : BitVec 8) (f : Vr) : bits (f.word op) 56 8 = op := by
  refine op_of_bits fun k hk => ?_
  simp only [Vr.word, BitVec.getLsbD_append]
  repeat rw [if_neg (by omega)]
  congr 1; omega

/-- The OP of a word of format Im. -/
theorem im_op (op : BitVec 8) (f : Im) : bits (f.word op) 56 8 = op := by
  refine op_of_bits fun k hk => ?_
  simp only [Im.word, BitVec.getLsbD_append]
  repeat rw [if_neg (by omega)]
  congr 1; omega

/-- The OP of a word of format Sr. -/
theorem sr_op (op : BitVec 8) (f : Sr) : bits (f.word op) 56 8 = op := by
  refine op_of_bits fun k hk => ?_
  simp only [Sr.word, BitVec.getLsbD_append]
  repeat rw [if_neg (by omega)]
  congr 1; omega

/-- The OP of a word of format Me. -/
theorem me_op (op : BitVec 8) (f : Me) : bits (f.word op) 56 8 = op := by
  refine op_of_bits fun k hk => ?_
  simp only [Me.word, BitVec.getLsbD_append]
  repeat rw [if_neg (by omega)]
  congr 1; omega

/-- The OP of a word of format Ma. -/
theorem ma_op (op : BitVec 8) (f : Ma) : bits (f.word op) 56 8 = op := by
  refine op_of_bits fun k hk => ?_
  simp only [Ma.word, BitVec.getLsbD_append]
  repeat rw [if_neg (by omega)]
  congr 1; omega

/-- The OP of a word of format En. -/
theorem en_op (op : BitVec 8) (f : En) : bits (f.word op) 56 8 = op := by
  refine op_of_bits fun k hk => ?_
  simp only [En.word, BitVec.getLsbD_append]
  repeat rw [if_neg (by omega)]
  congr 1; omega

/-- The OP of a word of format Ct. -/
theorem ct_op (op : BitVec 8) (f : Ct) : bits (f.word op) 56 8 = op := by
  refine op_of_bits fun k hk => ?_
  simp only [Ct.word, BitVec.getLsbD_append]
  repeat rw [if_neg (by omega)]
  congr 1; omega

/-- The OP of a word of format Yf. -/
theorem yf_op (op : BitVec 8) (f : Yf) : bits (f.word op) 56 8 = op := by
  refine op_of_bits fun k hk => ?_
  simp only [Yf.word, BitVec.getLsbD_append]
  repeat rw [if_neg (by omega)]
  congr 1; omega

end Sys2Proof.Laws.Coding
end

