-- ==== Sys2Proof/Laws/Maps.lean ====
section
/-!
SUPPORT. Laws of the sparse maps: what a read gives after an insertion, a removal or a write, and that each keeps the canonical form.
-/
namespace Sys2Proof.SMap

variable {β : Type}

/-- A look at the key just inserted. -/
@[simp] theorem look_ins_same (m : SMap β) (x : Nat) (v : β) : look (ins m x v) x = some v := by
  induction m with
  | nil => simp [ins, look]
  | cons e m ih =>
    obtain ⟨k, w⟩ := e
    unfold ins
    split
    · simp [look]
    · split
      · simp [look]
      · simp [look, *]

/-- A look at another key after an insertion. -/
theorem look_ins_other (m : SMap β) {x y : Nat} (v : β) (h : y ≠ x) : look (ins m x v) y = look m y := by
  induction m with
  | nil => simp [ins, look, h]
  | cons e m ih =>
    obtain ⟨k, w⟩ := e
    unfold ins
    split
    · simp [look, h]
    · split
      · rename_i _ hk; subst hk; simp [look, h]
      · simp only [look, ih]

/-- A look after an insertion. -/
theorem look_ins (m : SMap β) (x y : Nat) (v : β) : look (ins m x v) y = if y = x then some v else look m y := by
  split
  · next h => subst h; exact look_ins_same m y v
  · next h => exact look_ins_other m v h

/-- Keys above a bound: nothing is listed at the bound or below it. -/
theorem look_of_above {m : SMap β} {lo x : Nat} (h : above lo m = true) (hx : x ≤ lo) : look m x = none := by
  induction m generalizing lo with
  | nil => rfl
  | cons e m ih =>
    obtain ⟨k, w⟩ := e
    simp only [above, Bool.and_eq_true, decide_eq_true_eq] at h
    have hk : x ≠ k := by omega
    simp [look, hk, ih h.2 (by omega)]

/-- A map above a bound is above every smaller one. -/
theorem above_mono {m : SMap β} {lo lo' : Nat} (h : above lo m = true) (hl : lo' ≤ lo) : above lo' m = true := by
  cases m with
  | nil => rfl
  | cons e m =>
    obtain ⟨k, w⟩ := e
    simp only [above, Bool.and_eq_true, decide_eq_true_eq] at h ⊢
    exact ⟨by omega, h.2⟩

/-- A map above a bound is sorted. -/
theorem sorted_of_above {m : SMap β} {lo : Nat} (h : above lo m = true) : sorted m = true := by
  cases m with
  | nil => rfl
  | cons e m =>
    obtain ⟨k, w⟩ := e
    simp only [above, Bool.and_eq_true] at h
    exact h.2

/-- Insertion keeps keys above a bound. -/
theorem above_ins {m : SMap β} {lo x : Nat} (v : β) (h : above lo m = true) (hx : lo < x) : above lo (ins m x v) = true := by
  induction m generalizing lo with
  | nil => simp [ins, above, hx]
  | cons e m ih =>
    obtain ⟨k, w⟩ := e
    simp only [above, Bool.and_eq_true, decide_eq_true_eq] at h
    unfold ins
    split
    · simp [above, *]
    · split
      · next hk => subst hk; simp [above, h]
      · simp only [above, Bool.and_eq_true, decide_eq_true_eq]
        exact ⟨h.1, ih h.2 (by omega)⟩

/-- Insertion keeps a map sorted. -/
theorem sorted_ins {m : SMap β} (x : Nat) (v : β) (h : sorted m = true) : sorted (ins m x v) = true := by
  cases m with
  | nil => simp [ins, sorted, above]
  | cons e m =>
    obtain ⟨k, w⟩ := e
    simp only [sorted] at h
    unfold ins
    split
    · simp [sorted, above, *]
    · split
      · next hk => subst hk; simpa [sorted] using h
      · simp only [sorted]; exact above_ins v h (by omega)

/-- Removal keeps keys above a bound. -/
theorem above_del {m : SMap β} {lo : Nat} (x : Nat) (h : above lo m = true) : above lo (del m x) = true := by
  induction m generalizing lo with
  | nil => rfl
  | cons e m ih =>
    obtain ⟨k, w⟩ := e
    simp only [above, Bool.and_eq_true, decide_eq_true_eq] at h
    unfold del
    split
    · exact ih (above_mono h.2 (by omega))
    · simp only [above, Bool.and_eq_true, decide_eq_true_eq]; exact ⟨h.1, ih h.2⟩

/-- Removal keeps a map sorted. -/
theorem sorted_del {m : SMap β} (x : Nat) (h : sorted m = true) : sorted (del m x) = true := by
  cases m with
  | nil => rfl
  | cons e m =>
    obtain ⟨k, w⟩ := e
    simp only [sorted] at h
    unfold del
    split
    · exact sorted_of_above (above_del x h)
    · simp only [sorted]; exact above_del x h

/-- A look at another key after a removal. -/
theorem look_del_other (m : SMap β) {x y : Nat} (h : y ≠ x) : look (del m x) y = look m y := by
  induction m with
  | nil => rfl
  | cons e m ih =>
    obtain ⟨k, w⟩ := e
    unfold del
    split
    · next hk => subst hk; simp [look, h, ih]
    · simp only [look, ih]

/-- Nothing is listed at a key that was removed. -/
@[simp] theorem look_del_same (m : SMap β) (x : Nat) : look (del m x) x = none := by
  induction m with
  | nil => rfl
  | cons e m ih =>
    obtain ⟨k, w⟩ := e
    unfold del
    split
    · exact ih
    · next hk => simp [look, hk, ih]

/-- A read gives the value just written. -/
@[simp] theorem read_write_same [DecidableEq β] (d : β) (m : SMap β) (x : Nat) (v : β) :
    read d (write d m x v) x = v := by
  unfold read write
  split
  · next hv => simp [hv]
  · simp

/-- A write leaves what every other key reads as alone. -/
theorem read_write_other [DecidableEq β] (d : β) (m : SMap β) {x y : Nat} (v : β) (h : y ≠ x) :
    read d (write d m x v) y = read d m y := by
  unfold read write
  split
  · rw [look_del_other m h]
  · rw [look_ins_other m v h]

/-- The entries after an insertion: the new one, or old ones. -/
theorem all_ins {m : SMap β} {x : Nat} {v : β} {p : Nat × β → Bool} (h : m.all p = true) (hv : p (x, v) = true) :
    (ins m x v).all p = true := by
  induction m with
  | nil => simp [ins, hv]
  | cons e m ih =>
    obtain ⟨k, w⟩ := e
    simp only [List.all_cons, Bool.and_eq_true] at h
    unfold ins
    split
    · simp [hv, h]
    · split
      · simp [hv, h]
      · simp only [List.all_cons, Bool.and_eq_true]; exact ⟨h.1, ih h.2⟩

/-- The entries after a removal are old ones. -/
theorem all_del {m : SMap β} {x : Nat} {p : Nat × β → Bool} (h : m.all p = true) : (del m x).all p = true := by
  induction m with
  | nil => rfl
  | cons e m ih =>
    obtain ⟨k, w⟩ := e
    simp only [List.all_cons, Bool.and_eq_true] at h
    unfold del
    split
    · exact ih h.2
    · simp only [List.all_cons, Bool.and_eq_true]; exact ⟨h.1, ih h.2⟩

/-- A write keeps the canonical form. -/
theorem canon_write [DecidableEq β] {d : β} {m : SMap β} (x : Nat) (v : β) (h : canon d m = true) :
    canon d (write d m x v) = true := by
  unfold canon at h ⊢
  simp only [Bool.and_eq_true] at h ⊢
  unfold write
  split
  · exact ⟨sorted_del x h.1, all_del h.2⟩
  · next hv => exact ⟨sorted_ins x v h.1, all_ins h.2 (by simpa using hv)⟩

/-- Keeping some entries keeps keys above a bound. -/
theorem above_keep {m : SMap β} {lo : Nat} (f : Nat → β → Bool) (h : above lo m = true) : above lo (keep f m) = true := by
  induction m generalizing lo with
  | nil => rfl
  | cons e m ih =>
    obtain ⟨k, w⟩ := e
    simp only [above, Bool.and_eq_true, decide_eq_true_eq] at h
    unfold keep
    simp only [List.filter_cons]
    split
    · simp only [above, Bool.and_eq_true, decide_eq_true_eq]; exact ⟨h.1, ih h.2⟩
    · exact above_mono (ih h.2) (by omega)

/-- Keeping some entries keeps the canonical form. -/
theorem canon_keep [DecidableEq β] {d : β} {m : SMap β} (f : Nat → β → Bool) (h : canon d m = true) :
    canon d (keep f m) = true := by
  unfold canon at h ⊢
  simp only [Bool.and_eq_true] at h ⊢
  refine ⟨?_, ?_⟩
  · cases m with
    | nil => rfl
    | cons e m =>
      obtain ⟨k, w⟩ := e
      simp only [sorted] at h
      unfold keep
      simp only [List.filter_cons]
      split
      · simp only [sorted]; exact above_keep f h.1
      · exact sorted_of_above (above_keep f h.1)
  · have := h.2
    simp only [List.all_eq_true] at this ⊢
    intro e he
    exact this e (List.mem_filter.mp he).1

/-- A change of a listed value, looked at elsewhere. -/
theorem look_upd (m : SMap β) (x y : Nat) (f : β → β) :
    look (upd m x f) y = if y = x then (look m x).map f else look m y := by
  unfold upd
  split
  · next h =>
    split
    · next hy => subst hy; simp [h]
    · rfl
  · next v h =>
    rw [look_ins]
    split
    · next hy => subst hy; simp [h]
    · rfl

/-- A changed value where it is listed. -/
@[simp] theorem look_upd_same (m : SMap β) (x : Nat) (f : β → β) : look (upd m x f) x = (look m x).map f := by
  simp [look_upd]

/-- A change leaves other keys alone. -/
theorem look_upd_other (m : SMap β) {x y : Nat} (f : β → β) (h : y ≠ x) : look (upd m x f) y = look m y := by
  simp [look_upd, h]

end Sys2Proof.SMap
end

