-- ==== Sys2Proof/Laws/Issue.lean ====
section
/-!
SUPPORT. Laws of issue: past a clear gate an instruction's effect is made and its group moves on.
-/
namespace Sys2Proof.Machine

/-- Duplicates erased leave each element once. -/
theorem nodup_eraseDups {α : Type} [BEq α] [LawfulBEq α] (l : List α) : l.eraseDups.Nodup := by
  generalize hn : l.length = n
  induction n using Nat.strongRecOn generalizing l with
  | _ n ih =>
    cases l with
    | nil => simp
    | cons a l =>
      rw [List.eraseDups_cons, List.nodup_cons]
      refine ⟨?_, ?_⟩
      · simp [List.mem_eraseDups]
      · refine ih _ ?_ _ rfl
        have := List.length_filter_le (fun b => !b == a) l
        simp only [List.length_cons] at hn
        omega

/-- The active threads are listed once each. -/
theorem active_nodup (s : State) (g : Group) (gd : Guard) : (s.active g gd).Nodup :=
  (nodup_eraseDups g.threads).filter _

/-- Warps are listed once each. -/
theorem warpsOf_nodup (s : State) (ths : List Nat) : (s.warpsOf ths).Nodup := nodup_eraseDups _

/-- An active thread is a thread of the group. -/
theorem mem_active {s : State} {g : Group} {gd : Guard} {th : Nat} (h : th ∈ s.active g gd) : th ∈ g.threads := by
  unfold State.active at h
  simpa [List.mem_eraseDups] using (List.mem_filter.mp h).1

/-- Disarming for no warp changes nothing. -/
@[simp] theorem disarm_nil (s : State) (rs : List Nat) : s.disarm rs [] = s := by
  have h : s.armed.filter (fun _ => true) = s.armed := List.filter_eq_self.mpr (by simp)
  simp [State.disarm, SMap.keep, h]

/-- Nothing pending or owned: no interlock. -/
theorem interlock_none {s : State} {sh : Shape} {act wks : List Nat}
    (h1 : noLane s.vbusy act (sh.reads ++ sh.writes) = true) (h2 : noScalar s.sbusy wks (sh.reads ++ sh.writes) = true)
    (h3 : noLane s.vown act (sh.reads ++ sh.writes) = true) (h4 : noLane s.vread act sh.writes = true) :
    s.interlock sh act wks = .none := by
  unfold noLane laneRegs at h1 h3 h4
  unfold noScalar scalarRegs at h2
  simp only [Bool.not_eq_true', List.map_append, List.flatten_append] at h1 h2 h3 h4
  have h5 : anyLane s.vown act (laneRegs sh.reads) = false := by
    simp only [anyLane, List.any_eq_false, laneRegs] at h3 ⊢
    intro th hth hr
    simp only [List.any_eq_true] at hr
    obtain ⟨r, hr, hv⟩ := hr
    refine h3 th hth ?_
    simp only [List.any_eq_true, List.mem_append]
    exact ⟨r, Or.inl hr, hv⟩
  unfold State.interlock laneRegs scalarRegs
  unfold laneRegs at h5
  simp [h1, h2, h4, h5]

/-- The warp of a thread that exists is among its threads' warps. -/
theorem wkOf_mem {s : State} {th : Nat} {ths : List Nat} (h : s.unserved th = true) (hm : th ∈ ths) : s.wkOf th ∈ s.warpsOf ths := by
  unfold State.unserved at h
  cases hl : SMap.look s.threads th with
  | none => simp [hl] at h
  | some t =>
    unfold State.warpsOf
    rw [List.mem_eraseDups, List.mem_filterMap]
    exact ⟨th, hm, by simp [State.wkOf, hl]⟩

/-- Coherent latches change nothing of what an instruction reads. -/
theorem useLatches_of_latched {s : State} {i : Instr} {g : Group} (h : s.latched i g = true) : s.useLatches i g = s := by
  simp [State.useLatches, h]

/-- Coherent latches leave nothing to put back. -/
theorem dropLatches_of_latched {s : State} {i : Instr} {g : Group} (h : s.latched i g = true) (t : State) (ths wks : List Nat) :
    t.dropLatches s i g ths wks = t := by
  simp [State.dropLatches, h]

/-- A shape whose registers are among another's writes raises no ENGINE_REG where that one owns none. -/
theorem engineRegTraps_nil {s : State} {g : Group} {sh : Shape} {ths : List Nat} {os : List Opnd}
    (h : noLane s.vown ths os = true) (hs : ∀ o ∈ sh.writes, o ∈ os) : s.engineRegTraps g sh ths = [] := by
  unfold State.engineRegTraps
  apply List.filterMap_eq_nil_iff.mpr
  intro th hth
  have hno : ((laneRegs sh.writes).any (fun r => (SMap.look s.vown (vkey th r)).isSome)) = false := by
    simp only [noLane, anyLane, Bool.not_eq_true', List.any_eq_false, List.any_eq_true, not_exists, not_and] at h
    simp only [List.any_eq_false]
    intro r hr
    refine h th hth r ?_
    simp only [laneRegs, List.mem_flatten, List.mem_map] at hr ⊢
    obtain ⟨l, ⟨o, ho, rfl⟩, hrl⟩ := hr
    exact ⟨_, ⟨o, hs o ho, rfl⟩, hrl⟩
  simp [hno]

/-- The registers whose engine marks an issue looks at are among those it waits for. -/
theorem ownShape_writes (i : Instr) : ∀ o ∈ (ownShape i).writes, o ∈ (lockShape i).reads ++ (lockShape i).writes := by
  intro o ho
  unfold ownShape at ho
  split at ho
  · simp at ho
  · exact List.mem_append.mpr (Or.inr ho)

/-- What a clear gate says of latches. -/
theorem clear_latched {s : State} {i : Instr} {gd : Guard} {gid : Nat} {g : Group} (h : s.clear i gd gid g = true) :
    s.latched i g = true := by
  unfold State.clear at h
  exact (Bool.and_eq_true_iff.mp h).2

/-- A clear gate lets the instruction take effect in every thread of its group, and traps none. -/
theorem gate_clear {s : State} {i : Instr} {gd : Guard} {gid : Nat} {g : Group} (h : s.clear i gd gid g = true) :
    gate i gd s = .go { gid := gid, g := g, ths := g.threads, act := s.active g gd, wks := s.warpsOf (s.active g gd) } [] := by
  unfold State.clear at h
  simp only [Bool.and_eq_true, decide_eq_true_eq] at h
  obtain ⟨⟨⟨⟨⟨⟨⟨⟨⟨⟨⟨⟨⟨⟨hcur, hg⟩, hiss⟩, hun⟩, hw⟩, hroom⟩, hlinv⟩, l1⟩, l2⟩, l3⟩, l4⟩, ha⟩, hvb⟩, hsb⟩, _⟩ := h
  have hun' : ∀ th ∈ g.threads, ((SMap.look s.threads th).map Thread.rdvDone).getD false = false := by
    intro th hth
    have := List.all_eq_true.mp hun th hth
    unfold State.unserved at this
    cases hl : SMap.look s.threads th <;> simp_all
  have hrest : (s.active g gd).filter (fun th => !((SMap.look s.threads th).map Thread.rdvDone).getD false) = s.active g gd := by
    apply List.filter_eq_self.mpr
    intro th hth
    simp [hun' th (mem_active hth)]
  have hgrp : g.threads.filter (fun th => !((SMap.look s.threads th).map Thread.rdvDone).getD false) = g.threads := by
    apply List.filter_eq_self.mpr
    intro th hth
    simp [hun' th hth]
  have ht : ∀ l : List Nat, l.filter (fun _ => true) = l := fun l => List.filter_eq_self.mpr (by simp)
  have hin : ∀ th ∈ (if wholeWarp i then g.threads else s.active g gd), th ∈ g.threads := by
    intro th hth
    split at hth
    · exact hth
    · exact mem_active hth
  have hlock := interlock_none l1 l2 l3 l4
  have hwaits : (!g.waited && !s.waitsMet g) = false := by
    cases hwd : g.waited <;> simp_all
  have hlim : (isLimited i && s.overLimit g) = false := by
    cases hi : isLimited i <;> simp_all
  have hload : (isLoad i && (s.warpsOf (s.active g gd)).any s.linvPending) = false := by
    cases hi : isLoad i
    · rfl
    · rw [hi] at hlinv
      simpa using hlinv
  have hissued : (g.issued && isRendezvous i) = false := by
    simp only [Bool.not_eq_true'] at hiss
    simp [hiss]
  have t1 : s.armedTraps g (armedRegs i) (s.warpsOf (s.active g gd)) = [] := by
    unfold State.armedTraps
    apply List.filterMap_eq_nil_iff.mpr
    intro th hth
    simp only
    split
    · next hc =>
      have hm : s.wkOf th ∈ s.warpsOf (s.active g gd) := by simpa using hc
      simp only [Option.map_eq_none_iff, List.findSome?_eq_none_iff]
      intro r hr
      unfold anyScalar at ha
      simp only [Bool.not_eq_true', List.any_eq_false, List.any_eq_true, not_exists, not_and, Bool.not_eq_true,
        Option.isSome_eq_false_iff, Option.isNone_iff_eq_none] at ha
      exact ha _ hm r hr
    · rfl
  have t2 : s.engineRegTraps g (ownShape i) (if wholeWarp i then g.threads else s.active g gd) = [] :=
    engineRegTraps_nil l3 (ownShape_writes i)
  have t3 : s.badRegTraps g (badShape i) (if wholeWarp i then g.threads else s.active g gd) = [] := by
    unfold State.badRegTraps
    apply List.filterMap_eq_nil_iff.mpr
    intro th hth
    unfold noLane anyLane at hvb
    unfold noScalar anyScalar at hsb
    simp only [Bool.not_eq_true', List.any_eq_false, List.any_eq_true, not_exists, not_and, Bool.not_eq_true,
      Option.isSome_eq_false_iff, Option.isNone_iff_eq_none] at hvb hsb
    have a1 : ((laneRegs (badShape i).reads).any (fun r => (SMap.look s.vbad (vkey th r)).isSome)) = false := by
      simp only [List.any_eq_false, Bool.not_eq_true, Option.isSome_eq_false_iff, Option.isNone_iff_eq_none]
      exact fun r hr => hvb th hth r hr
    have a2 : ((scalarRegs (badShape i).reads).any (fun r => (SMap.look s.sbad (skey (s.wkOf th) r)).isSome)) = false := by
      simp only [List.any_eq_false, Bool.not_eq_true, Option.isSome_eq_false_iff, Option.isNone_iff_eq_none]
      intro r hr
      exact hsb _ (wkOf_mem (List.all_eq_true.mp hun th (hin th hth)) hth) r hr
    simp [a1, a2]
  unfold gate
  simp only [hcur, Option.bind_some, hg, Option.map_some, hissued, hrest, hgrp, hlock, hwaits, hlim, hload, t1, t2, t3] <;> simp [ht]

/-- Past a clear gate an instruction has its effect. -/
theorem issue_clear {s : State} {i : Instr} {gd : Guard} {gid : Nat} {g : Group} (h : s.clear i gd gid g = true)
    (eff : Go → State → Eff) :
    issue i gd s eff =
      (match eff { gid := gid, g := g, ths := g.threads, act := s.active g gd, wks := s.warpsOf (s.active g gd) } s with
       | .stall w => .next (s.stallAt gid w)
       | .wait s1 w => .next (((s1.noteIssue gid).updGroup gid (fun g => { g with waited := true, issued := isRendezvous i })).stallAt gid w)
       | .done s1 more => .next (s1.finish gid (s.latches i g) more)) := by
  have hl := clear_latched h
  unfold issue
  rw [gate_clear h]
  simp only [List.isEmpty_nil, if_true, disarm_nil, List.nil_append, useLatches_of_latched hl, dropLatches_of_latched hl] <;>
    (generalize eff _ s = e; cases e <;> rfl)

/-- A per-thread form past a clear gate. -/
theorem perThread_clear {s : State} {i : Instr} {gd : Guard} {gid : Nat} {g : Group} (h : s.clear i gd gid g = true)
    (eff : Nat → Nat → State → State) :
    perThread i gd s eff =
      .next (((s.active g gd).foldl (fun s th => eff (s.wkOf th) th s) s).finish gid (s.latches i g) []) := by
  unfold perThread
  rw [issue_clear h]

/-- A per-warp form past a clear gate. -/
theorem perWarp_clear {s : State} {i : Instr} {gd : Guard} {gid : Nat} {g : Group} (h : s.clear i gd gid g = true)
    (eff : Nat → State → State) :
    perWarp i gd s eff =
      .next (((s.warpsOf (s.active g gd)).foldl (fun s wk => eff wk s) s).finish gid (s.latches i g) []) := by
  unfold perWarp
  rw [issue_clear h]

end Sys2Proof.Machine
end

