-- ==== Sys2Proof/Laws/Registers.lean ====
section
/-!
SUPPORT. Laws of the register file: what each read gives after each write, and what a form that writes one register of every active
thread or warp leaves.
-/
namespace Sys2Proof.Machine

/-! Keys. -/

theorem vkey_inj {th th' r r' : Nat} (h : r < 256) (h' : r' < 256) : vkey th r = vkey th' r' ↔ th = th' ∧ r = r' := by
  unfold vkey; omega

theorem skey_inj {wk wk' r r' : Nat} (h : r < 64) (h' : r' < 64) : skey wk r = skey wk' r' ↔ wk = wk' ∧ r = r' := by
  unfold skey; omega

theorem pkey_inj {th th' p p' : Nat} (h : p < 8) (h' : p' < 8) : pkey th p = pkey th' p' ↔ th = th' ∧ p = p' := by
  unfold pkey; omega

/-! Scalar registers. -/

/-- A scalar register after a write of one (R39). -/
theorem sget_sset (s : State) {wk wk' r r' : Nat} (x : W64) (h : r < 64) (h' : r' < 64) :
    (s.sset wk r x).sget wk' r' = if wk' = wk ∧ r' = r then (if r = 63 then 0 else x) else s.sget wk' r' := by
  unfold State.sset State.sget
  by_cases hr : r = 63
  · simp only [hr, if_true]
    split <;> simp_all
  · simp only [hr, if_false]
    by_cases hr' : r' = 63
    · simp only [hr', if_true]
      split <;> simp_all
    · simp only [hr', if_false]
      by_cases hk : wk' = wk ∧ r' = r
      · simp [hk.1, hk.2]
      · simp only [hk, if_false]
        exact SMap.read_write_other _ _ _ (fun e => hk ((skey_inj h' h).mp e))

/-- sz reads zero (R39). -/
@[simp] theorem sget_63 (s : State) (wk : Nat) : s.sget wk 63 = 0 := by simp [State.sget]

/-- A write of sz changes nothing (R39). -/
@[simp] theorem sset_63 (s : State) (wk : Nat) (x : W64) : s.sset wk 63 x = s := by simp [State.sset]

/-- A write of a scalar register leaves everything else. -/
theorem sset_only (s : State) (wk r : Nat) (x : W64) : onlyScalars s (s.sset wk r x) := by
  unfold onlyScalars State.sset
  split <;> rfl

@[simp] theorem sset_v (s : State) (wk r : Nat) (x : W64) : (s.sset wk r x).v = s.v := by unfold State.sset; split <;> rfl
@[simp] theorem sset_pr (s : State) (wk r : Nat) (x : W64) : (s.sset wk r x).pr = s.pr := by unfold State.sset; split <;> rfl
@[simp] theorem sset_threads (s : State) (wk r : Nat) (x : W64) : (s.sset wk r x).threads = s.threads := by
  unfold State.sset; split <;> rfl
@[simp] theorem sset_warps (s : State) (wk r : Nat) (x : W64) : (s.sset wk r x).warps = s.warps := by
  unfold State.sset; split <;> rfl
@[simp] theorem sset_groups (s : State) (wk r : Nat) (x : W64) : (s.sset wk r x).groups = s.groups := by
  unfold State.sset; split <;> rfl
@[simp] theorem sset_mem (s : State) (wk r : Nat) (x : W64) : (s.sset wk r x).mem = s.mem := by
  unfold State.sset; split <;> rfl

/-! Lane registers. -/

/-- A lane register after a write of one (R39). -/
theorem vget_vset (s : State) {th th' r r' : Nat} (x : W32) (h : r < 256) (h' : r' < 256) :
    (s.vset th r x).vget th' r' = if th' = th ∧ r' = r then (if r = 255 then 0 else x) else s.vget th' r' := by
  unfold State.vset State.vget
  by_cases hr : r = 255
  · simp only [hr, if_true]
    split <;> simp_all
  · simp only [hr, if_false]
    by_cases hr' : r' = 255
    · simp only [hr', if_true]
      split <;> simp_all
    · simp only [hr', if_false]
      by_cases hk : th' = th ∧ r' = r
      · simp [hk.1, hk.2]
      · simp only [hk, if_false]
        exact SMap.read_write_other _ _ _ (fun e => hk ((vkey_inj h' h).mp e))

/-- vz reads zero (R39). -/
@[simp] theorem vget_255 (s : State) (th : Nat) : s.vget th 255 = 0 := by simp [State.vget]

/-- A write of vz changes nothing (R39). -/
@[simp] theorem vset_255 (s : State) (th : Nat) (x : W32) : s.vset th 255 x = s := by simp [State.vset]

/-- A write of a lane register leaves everything else. -/
theorem vset_only (s : State) (th r : Nat) (x : W32) : onlyLanes s (s.vset th r x) := by
  unfold onlyLanes State.vset
  split <;> rfl

@[simp] theorem vset_sr (s : State) (th r : Nat) (x : W32) : (s.vset th r x).sr = s.sr := by unfold State.vset; split <;> rfl
@[simp] theorem vset_pr (s : State) (th r : Nat) (x : W32) : (s.vset th r x).pr = s.pr := by unfold State.vset; split <;> rfl
@[simp] theorem vset_threads (s : State) (th r : Nat) (x : W32) : (s.vset th r x).threads = s.threads := by
  unfold State.vset; split <;> rfl
@[simp] theorem vset_groups (s : State) (th r : Nat) (x : W32) : (s.vset th r x).groups = s.groups := by
  unfold State.vset; split <;> rfl
@[simp] theorem vset_mem (s : State) (th r : Nat) (x : W32) : (s.vset th r x).mem = s.mem := by
  unfold State.vset; split <;> rfl

/-- The halves of a pair. -/
@[simp] theorem pair_halves (x : W64) : pair (lo32 x) (hi32 x) = x := by
  unfold pair lo32 hi32
  apply BitVec.eq_of_getLsbD_eq
  intro i hi
  rw [BitVec.getLsbD_append]
  split
  · next h => simp [h]
  · next h =>
    simp only [BitVec.getLsbD_setWidth, BitVec.getLsbD_ushiftRight]
    have h1 : i - 32 < 32 := by omega
    have h2 : 32 + (i - 32) = i := by omega
    simp [h1, h2]

/-! Predicates. -/

/-- A predicate after a write of one (R39). -/
theorem pget_pset (s : State) {th th' p p' : Nat} (x : Bool) (h : p < 8) (h' : p' < 8) :
    (s.pset th p x).pget th' p' = if th' = th ∧ p' = p then (if p = 7 then true else x) else s.pget th' p' := by
  unfold State.pset State.pget
  by_cases hr : p = 7
  · simp only [hr, if_true]
    split <;> simp_all
  · simp only [hr, if_false]
    by_cases hr' : p' = 7
    · simp only [hr', if_true]
      split <;> simp_all
    · simp only [hr', if_false]
      by_cases hk : th' = th ∧ p' = p
      · simp [hk.1, hk.2]
      · simp only [hk, if_false]
        exact SMap.read_write_other _ _ _ (fun e => hk ((pkey_inj h' h).mp e))

/-- A write of a predicate leaves everything else. -/
theorem pset_only (s : State) (th p : Nat) (x : Bool) : onlyPreds s (s.pset th p x) := by
  unfold onlyPreds State.pset
  split <;> rfl

/-! Frames put together. -/

theorem onlyScalars_refl (s : State) : onlyScalars s s := rfl

theorem onlyScalars_trans {a b c : State} (h1 : onlyScalars a b) (h2 : onlyScalars b c) : onlyScalars a c := by
  unfold onlyScalars at *
  rw [h1] at h2
  exact h2

theorem onlyLanes_refl (s : State) : onlyLanes s s := rfl

theorem onlyLanes_trans {a b c : State} (h1 : onlyLanes a b) (h2 : onlyLanes b c) : onlyLanes a c := by
  unfold onlyLanes at *
  rw [h1] at h2
  exact h2

theorem onlyPreds_refl (s : State) : onlyPreds s s := rfl

theorem onlyPreds_trans {a b c : State} (h1 : onlyPreds a b) (h2 : onlyPreds b c) : onlyPreds a c := by
  unfold onlyPreds at *
  rw [h1] at h2
  exact h2

/-! One register of every warp or thread of a list. -/

/-- A scalar register written in each warp of a list, from values that a write in another warp leaves alone. -/
theorem fold_sset {d : Nat} (hd : d < 64) {F : State → Nat → W64}
    (hF : ∀ s wk wk' x, wk ≠ wk' → F (s.sset wk' d x) wk = F s wk) (l : List Nat) (s : State) (hl : l.Nodup) :
    (∀ wk ∈ l, (l.foldl (fun s wk => s.sset wk d (F s wk)) s).sget wk d = if d = 63 then 0 else F s wk) ∧
    (∀ wk r, r < 64 → ¬(wk ∈ l ∧ r = d) → (l.foldl (fun s wk => s.sset wk d (F s wk)) s).sget wk r = s.sget wk r) ∧
    onlyScalars s (l.foldl (fun s wk => s.sset wk d (F s wk)) s) := by
  induction l generalizing s with
  | nil => exact ⟨by simp, by simp, rfl⟩
  | cons a l ih =>
    have hn := List.nodup_cons.mp hl
    obtain ⟨h1, h2, h3⟩ := ih (s.sset a d (F s a)) hn.2
    simp only [List.foldl_cons]
    refine ⟨?_, ?_, onlyScalars_trans (sset_only ..) h3⟩
    · intro wk hwk
      by_cases e : wk = a
      · subst e
        rw [h2 wk d hd (by simp [hn.1]), sget_sset s _ hd hd]
        simp
      · have hm : wk ∈ l := by simpa [e] using hwk
        rw [h1 wk hm, hF s wk a _ e]
    · intro wk r hr hk
      rw [h2 wk r hr (fun c => hk ⟨List.mem_cons_of_mem _ c.1, c.2⟩), sget_sset s _ hd hr, if_neg]
      exact fun c => hk ⟨by simp [c.1], c.2⟩

/-- A lane register written in each thread of a list, from values that a write in another thread leaves alone. -/
theorem fold_vset {d : Nat} (hd : d < 256) {F : State → Nat → W32}
    (hF : ∀ s th th' x, th ≠ th' → F (s.vset th' d x) th = F s th) (l : List Nat) (s : State) (hl : l.Nodup) :
    (∀ th ∈ l, (l.foldl (fun s th => s.vset th d (F s th)) s).vget th d = if d = 255 then 0 else F s th) ∧
    (∀ th r, r < 256 → ¬(th ∈ l ∧ r = d) → (l.foldl (fun s th => s.vset th d (F s th)) s).vget th r = s.vget th r) ∧
    onlyLanes s (l.foldl (fun s th => s.vset th d (F s th)) s) := by
  induction l generalizing s with
  | nil => exact ⟨by simp, by simp, rfl⟩
  | cons a l ih =>
    have hn := List.nodup_cons.mp hl
    obtain ⟨h1, h2, h3⟩ := ih (s.vset a d (F s a)) hn.2
    simp only [List.foldl_cons]
    refine ⟨?_, ?_, onlyLanes_trans (vset_only ..) h3⟩
    · intro th hth
      by_cases e : th = a
      · subst e
        rw [h2 th d hd (by simp [hn.1]), vget_vset s _ hd hd]
        simp
      · have hm : th ∈ l := by simpa [e] using hth
        rw [h1 th hm, hF s th a _ e]
    · intro th r hr hk
      rw [h2 th r hr (fun c => hk ⟨List.mem_cons_of_mem _ c.1, c.2⟩), vget_vset s _ hd hr, if_neg]
      exact fun c => hk ⟨by simp [c.1], c.2⟩

/-- A write of a pair leaves everything else. -/
theorem vsetp_only (s : State) (th r : Nat) (x : W64) : onlyLanes s (s.vsetp th r x) :=
  onlyLanes_trans (vset_only ..) (vset_only ..)

/-- A lane register after a write of a pair below vz (R51). -/
theorem vget_vsetp (s : State) {th th' r r' : Nat} (x : W64) (h : r + 1 < 255) (h' : r' < 256) :
    (s.vsetp th r x).vget th' r' =
      if th' = th ∧ r' = r + 1 then hi32 x else if th' = th ∧ r' = r then lo32 x else s.vget th' r' := by
  unfold State.vsetp
  rw [vget_vset _ _ (by omega) h', vget_vset _ _ (by omega) h']
  have h1 : r ≠ 255 := by omega
  have h2 : r + 1 ≠ 255 := by omega
  simp [h1, h2]

/-- A pair after it is written (R51). -/
theorem vgetp_vsetp_same (s : State) {th r : Nat} (x : W64) (h : r + 1 < 255) : (s.vsetp th r x).vgetp th r = x := by
  unfold State.vgetp
  rw [vget_vsetp s x h (by omega), vget_vsetp s x h (by omega)]
  simp

/-- A pair written in each thread of a list, from values that a write in another thread leaves alone. -/
theorem fold_vsetp {d : Nat} (hd : d + 1 < 255) {F : State → Nat → W64}
    (hF : ∀ s th th' x, th ≠ th' → F (s.vsetp th' d x) th = F s th) (l : List Nat) (s : State) (hl : l.Nodup) :
    (∀ th ∈ l, (l.foldl (fun s th => s.vsetp th d (F s th)) s).vgetp th d = F s th) ∧
    (∀ th r, r < 256 → ¬(th ∈ l ∧ (r = d ∨ r = d + 1)) →
      (l.foldl (fun s th => s.vsetp th d (F s th)) s).vget th r = s.vget th r) ∧
    onlyLanes s (l.foldl (fun s th => s.vsetp th d (F s th)) s) := by
  induction l generalizing s with
  | nil => exact ⟨by simp, by simp, rfl⟩
  | cons a l ih =>
    have hn := List.nodup_cons.mp hl
    obtain ⟨h1, h2, h3⟩ := ih (s.vsetp a d (F s a)) hn.2
    simp only [List.foldl_cons]
    refine ⟨?_, ?_, onlyLanes_trans (vsetp_only ..) h3⟩
    · intro th hth
      by_cases e : th = a
      · subst e
        unfold State.vgetp
        rw [h2 th d (by omega) (by simp [hn.1]), h2 th (d + 1) (by omega) (by simp [hn.1])]
        exact vgetp_vsetp_same s _ hd
      · have hm : th ∈ l := by simpa [e] using hth
        rw [h1 th hm, hF s th a _ e]
    · intro th r hr hk
      rw [h2 th r hr (fun c => hk ⟨List.mem_cons_of_mem _ c.1, c.2⟩), vget_vsetp s _ hd hr]
      rw [if_neg (fun c => hk ⟨by simp [c.1], Or.inr c.2⟩), if_neg (fun c => hk ⟨by simp [c.1], Or.inl c.2⟩)]

/-- A predicate written in each thread of a list, from values that a write in another thread leaves alone. -/
theorem fold_pset {p : Nat} (hp : p < 7) {F : State → Nat → Bool}
    (hF : ∀ s th th' x, th ≠ th' → F (s.pset th' p x) th = F s th) (l : List Nat) (s : State) (hl : l.Nodup) :
    (∀ th ∈ l, (l.foldl (fun s th => s.pset th p (F s th)) s).pget th p = F s th) ∧
    (∀ th q, q < 8 → ¬(th ∈ l ∧ q = p) → (l.foldl (fun s th => s.pset th p (F s th)) s).pget th q = s.pget th q) ∧
    onlyPreds s (l.foldl (fun s th => s.pset th p (F s th)) s) := by
  induction l generalizing s with
  | nil => exact ⟨by simp, by simp, rfl⟩
  | cons a l ih =>
    have hn := List.nodup_cons.mp hl
    obtain ⟨h1, h2, h3⟩ := ih (s.pset a p (F s a)) hn.2
    simp only [List.foldl_cons]
    refine ⟨?_, ?_, onlyPreds_trans (pset_only ..) h3⟩
    · intro th hth
      by_cases e : th = a
      · subst e
        rw [h2 th p (by omega) (by simp [hn.1]), pget_pset s _ (by omega) (by omega)]
        have h7 : p ≠ 7 := by omega
        simp [h7]
      · have hm : th ∈ l := by simpa [e] using hth
        rw [h1 th hm, hF s th a _ e]
    · intro th q hq hk
      rw [h2 th q hq (fun c => hk ⟨List.mem_cons_of_mem _ c.1, c.2⟩), pget_pset s _ (by omega) hq, if_neg]
      exact fun c => hk ⟨by simp [c.1], c.2⟩

/-! Forms that write one register. -/

/-- A per-warp form that writes a scalar register sets it. -/
theorem setsScalar_of {i : Instr} {gd : Guard} {d : RegField} {F : State → Nat → W64}
    (hx : ∀ s, exec i s = perWarp i gd s (fun wk s => s.sset wk d.toNat (F s wk)))
    (hd : i.wf = true → d.toNat < 64)
    (hF : i.wf = true → ∀ s wk wk' x, wk ≠ wk' → F (s.sset wk' d.toNat x) wk = F s wk) : SetsScalar i gd d F := by
  intro s gid g hw hc
  obtain ⟨h1, h2, h3⟩ := fold_sset (hd hw) (hF hw) (s.warpsOf (s.active g gd)) s (warpsOf_nodup _ _)
  refine ⟨_, by rw [hx, perWarp_clear hc], ?_, h2, h3⟩
  intro wk hwk
  rw [h1 wk hwk]
  have : d.toNat = 63 ↔ d = 63 := by
    constructor
    · intro h; exact BitVec.eq_of_toNat_eq (by simpa using h)
    · intro h; subst h; rfl
  simp [this]

/-- A lane operand written is its register or its pair written. -/
theorem setLane_wide (s : State) (th : Nat) (r : RegField) (x : Nat) : s.setLane th true r x = s.vsetp th r.toNat (BitVec.ofNat 64 x) := rfl
theorem setLane_narrow (s : State) (th : Nat) (r : RegField) (x : Nat) : s.setLane th false r x = s.vset th r.toNat (BitVec.ofNat 32 x) := rfl

/-- A per-thread form that writes a lane operand sets it. -/
theorem setsLane_of {i : Instr} {gd : Guard} {wide : Bool} {d : RegField} {G : State → Nat → Nat → Nat}
    (hx : ∀ s, exec i s = perThread i gd s (fun wk th s => s.setLane th wide d (G s wk th)))
    (hd : i.wf = true → wide = true → d.toNat + 1 < 255)
    (hF : i.wf = true → ∀ s th th' x, th ≠ th' →
      G (s.setLane th' wide d x) (s.wkOf th) th = G s (s.wkOf th) th) :
    SetsLane i gd wide d (fun s th => G s (s.wkOf th) th) := by
  intro s gid g hw hc
  have hwk : ∀ (s : State) th th' x, (s.setLane th' wide d x).wkOf th = s.wkOf th := by
    intro s th th' x
    unfold State.wkOf State.setLane State.vsetp
    cases wide <;> simp
  have he : exec i s = .next (((s.active g gd).foldl (fun s th => s.setLane th wide d (G s (s.wkOf th) th)) s).finish gid (s.latches i g) []) := by
    rw [hx, perThread_clear hc]
  refine ⟨_, he, ?_⟩
  cases wide with
  | true =>
    have hF' : ∀ (s : State) th th' (x : W64), th ≠ th' →
        BitVec.ofNat 64 (G (s.vsetp th' d.toNat x) ((s.vsetp th' d.toNat x).wkOf th) th) = BitVec.ofNat 64 (G s (s.wkOf th) th) := by
      intro s th th' x hne
      have e1 := hF hw s th th' x.toNat hne
      have e2 := hwk s th th' x.toNat
      simp only [setLane_wide, BitVec.ofNat_toNat, BitVec.setWidth_eq] at e1 e2
      rw [e2, e1]
    obtain ⟨h1, h2, h3⟩ := fold_vsetp (hd hw rfl) (F := fun s th => BitVec.ofNat 64 (G s (s.wkOf th) th)) hF' (s.active g gd) s
      (active_nodup _ _ _)
    refine ⟨?_, ?_, h3⟩
    · intro th hth
      simp only [if_true]
      exact h1 th hth
    · intro th r hr hk
      exact h2 th r hr (fun c => hk ⟨c.1, c.2.imp id (fun e => ⟨rfl, e⟩)⟩)
  | false =>
    have hF' : ∀ (s : State) th th' (x : W32), th ≠ th' →
        BitVec.ofNat 32 (G (s.vset th' d.toNat x) ((s.vset th' d.toNat x).wkOf th) th) = BitVec.ofNat 32 (G s (s.wkOf th) th) := by
      intro s th th' x hne
      have e1 := hF hw s th th' x.toNat hne
      have e2 := hwk s th th' x.toNat
      simp only [setLane_narrow, BitVec.ofNat_toNat, BitVec.setWidth_eq] at e1 e2
      rw [e2, e1]
    obtain ⟨h1, h2, h3⟩ := fold_vset (d := d.toNat) (by have := d.isLt; omega) (F := fun s th => BitVec.ofNat 32 (G s (s.wkOf th) th)) hF'
      (s.active g gd) s (active_nodup _ _ _)
    refine ⟨?_, ?_, h3⟩
    · intro th hth
      have e : d.toNat = 255 ↔ d = 255 :=
        ⟨fun h => BitVec.eq_of_toNat_eq (by simpa using h), fun h => by subst h; rfl⟩
      have := h1 th hth
      simp only [e] at this
      exact this
    · intro th r hr hk
      exact h2 th r hr (fun c => hk ⟨c.1, Or.inl c.2⟩)

/-- A per-thread form that writes a predicate sets it. -/
theorem setsPred_of {i : Instr} {gd : Guard} {p : Nat} {G : State → Nat → Nat → Bool}
    (hx : ∀ s, exec i s = perThread i gd s (fun wk th s => s.pset th p (G s wk th)))
    (hp : i.wf = true → p < 7)
    (hF : i.wf = true → ∀ s th th' x, th ≠ th' → G (s.pset th' p x) (s.wkOf th) th = G s (s.wkOf th) th) :
    SetsPred i gd p (fun s th => G s (s.wkOf th) th) := by
  intro s gid g hw hc
  have hwk : ∀ (s : State) th th' x, (s.pset th' p x).wkOf th = s.wkOf th := by
    intro s th th' x
    unfold State.wkOf State.pset
    split <;> rfl
  have hF' : ∀ (s : State) th th' x, th ≠ th' → G (s.pset th' p x) ((s.pset th' p x).wkOf th) th = G s (s.wkOf th) th := by
    intro s th th' x hne
    rw [hwk, hF hw s th th' x hne]
  obtain ⟨h1, h2, h3⟩ := fold_pset (hp hw) (F := fun s th => G s (s.wkOf th) th) hF' (s.active g gd) s (active_nodup _ _ _)
  exact ⟨_, by rw [hx, perThread_clear hc], h1, h2, h3⟩

/-- A form that sets a register to equal values sets it. -/
theorem setsScalar_congr {i : Instr} {gd : Guard} {d : RegField} {F G : State → Nat → W64} (h : ∀ s wk, F s wk = G s wk)
    (hF : SetsScalar i gd d F) : SetsScalar i gd d G := by
  have e : F = G := by funext s wk; exact h s wk
  rwa [← e]

/-- A form that sets a lane operand to equal values sets it. -/
theorem setsLane_congr {i : Instr} {gd : Guard} {w : Bool} {d : RegField} {F G : State → Nat → Nat} (h : ∀ s th, F s th = G s th)
    (hF : SetsLane i gd w d F) : SetsLane i gd w d G := by
  have e : F = G := by funext s th; exact h s th
  rwa [← e]

/-- A form that sets a predicate to equal values sets it. -/
theorem setsPred_congr {i : Instr} {gd : Guard} {p : Nat} {F G : State → Nat → Bool} (h : ∀ s th, F s th = G s th)
    (hF : SetsPred i gd p F) : SetsPred i gd p G := by
  have e : F = G := by funext s th; exact h s th
  rwa [← e]

/-! Operands after a write in another thread. -/

theorem vget_other (s : State) {th th' r r' : Nat} (x : W32) (h : th' ≠ th) (hr : r < 256) (hr' : r' < 256) :
    (s.vset th r x).vget th' r' = s.vget th' r' := by
  rw [vget_vset s x hr hr', if_neg (fun c => h c.1)]

@[simp] theorem setLane_sr (s : State) (th : Nat) (w : Bool) (r : RegField) (x : Nat) : (s.setLane th w r x).sr = s.sr := by
  unfold State.setLane State.vsetp; cases w <;> simp
@[simp] theorem setLane_pr (s : State) (th : Nat) (w : Bool) (r : RegField) (x : Nat) : (s.setLane th w r x).pr = s.pr := by
  unfold State.setLane State.vsetp; cases w <;> simp
@[simp] theorem setLane_threads (s : State) (th : Nat) (w : Bool) (r : RegField) (x : Nat) :
    (s.setLane th w r x).threads = s.threads := by
  unfold State.setLane State.vsetp; cases w <;> simp

/-- A scalar register after a write of a lane operand. -/
@[simp] theorem sget_setLane (s : State) (th : Nat) (w : Bool) (r : RegField) (x wk q : Nat) :
    (s.setLane th w r x).sget wk q = s.sget wk q := by
  unfold State.sget; rw [setLane_sr]

/-- A predicate after a write of a lane operand. -/
@[simp] theorem pget_setLane (s : State) (th : Nat) (w : Bool) (r : RegField) (x th' p : Nat) :
    (s.setLane th w r x).pget th' p = s.pget th' p := by
  unfold State.pget; rw [setLane_pr]

/-- A lane register of another thread after a write of a lane operand below vz. -/
theorem vget_setLane_other (s : State) {th th' : Nat} (w : Bool) (r : RegField) (x : Nat) {q : Nat} (h : th' ≠ th) (hq : q < 256)
    (hr : w = true → r.toNat + 1 < 255) : (s.setLane th w r x).vget th' q = s.vget th' q := by
  cases w with
  | false => exact vget_other s _ h (by have := r.isLt; omega) hq
  | true =>
    rw [setLane_wide, vget_vsetp s _ (hr rfl) hq, if_neg (fun c => h c.1), if_neg (fun c => h c.1)]

/-- A lane operand of another thread after a write of a lane operand. -/
theorem lane_setLane_other (s : State) {th th' : Nat} (w : Bool) (r : RegField) (x : Nat) (w' : Bool) (q : RegField) (h : th' ≠ th)
    (hr : w = true → r.toNat + 1 < 255) (hq : w' = true → q.toNat + 1 < 256) :
    (s.setLane th w r x).lane th' w' q = s.lane th' w' q := by
  have h1 : q.toNat < 256 := q.isLt
  unfold State.lane State.vgetp
  cases w' with
  | false => simp only [Bool.false_eq_true, if_false]; rw [vget_setLane_other s w r x h h1 hr]
  | true =>
    simp only [if_true]
    rw [vget_setLane_other s w r x h h1 hr, vget_setLane_other s w r x h (hq rfl) hr]

/-- Operand B of another thread after a write of a lane operand. -/
theorem opB_setLane_other (s : State) {th th' : Nat} (w : Bool) (r : RegField) (x : Nat) (wk : Nat) (w' : Bool) (f : Vr) (h : th' ≠ th)
    (hr : w = true → r.toNat + 1 < 255) (hq : f.sb = false → w' = true → f.b.toNat + 1 < 256) :
    (s.setLane th w r x).opB wk th' w' f = s.opB wk th' w' f := by
  unfold State.opB
  cases hs : f.sb with
  | true => simp
  | false => simp only [Bool.false_eq_true, if_false]; exact lane_setLane_other s w r x w' f.b h hr (hq hs)

end Sys2Proof.Machine
end

