-- ==== Sys2Proof/Laws/Moves.lean ====
section
/-!
SUPPORT. What the delivery of traps and a group's moving on can change (R75, R76, R225): one lemma for each shared operation.
-/
namespace Sys2Proof.Machine

theorem movesOn_refl (s : State) : movesOn s s := ⟨rfl, fun _ _ _ _ _ => rfl⟩

theorem movesOn_trans {a b c : State} (h1 : movesOn a b) (h2 : movesOn b c) : movesOn a c := by
  obtain ⟨e1, r1⟩ := h1
  obtain ⟨e2, r2⟩ := h2
  refine ⟨?_, fun wk r h h61 h62 => by rw [r2 wk r h h61 h62, r1 wk r h h61 h62]⟩
  rw [e1] at e2
  exact e2

/-- A change of fields that moving on may change, scalar registers among them. -/
theorem movesOn_of {s t : State} (h : t = { s with
      groups := t.groups, threads := t.threads, warps := t.warps, teams := t.teams, cores := t.cores, ctxs := t.ctxs,
      rdvs := t.rdvs, nid := t.nid, fc := t.fc }) : movesOn s t := by
  have hs : t.sr = s.sr := by rw [h]
  refine ⟨?_, fun wk r _ _ _ => by simp [State.sget, hs]⟩
  rw [h]

variable {a b : State}

theorem movesOn_updThread (h : movesOn a b) (th : Nat) (f : Thread → Thread) : movesOn a (b.updThread th f) :=
  movesOn_trans h (movesOn_of rfl)
theorem movesOn_updWarp (h : movesOn a b) (wk : Nat) (f : Warp → Warp) : movesOn a (b.updWarp wk f) :=
  movesOn_trans h (movesOn_of rfl)
theorem movesOn_updTeam (h : movesOn a b) (tk : Nat) (f : Team → Team) : movesOn a (b.updTeam tk f) :=
  movesOn_trans h (movesOn_of rfl)
theorem movesOn_updGroup (h : movesOn a b) (gid : Nat) (f : Group → Group) : movesOn a (b.updGroup gid f) :=
  movesOn_trans h (movesOn_of rfl)
theorem movesOn_updCtx (h : movesOn a b) (ck : Nat) (f : Ctx → Ctx) : movesOn a (b.updCtx ck f) :=
  movesOn_trans h (movesOn_of rfl)
theorem movesOn_updCore (h : movesOn a b) (c : Nat) (f : CoreSt → CoreSt) : movesOn a (b.updCore c f) :=
  movesOn_trans h (movesOn_of rfl)
theorem movesOn_groups (h : movesOn a b) (m : SMap Group) : movesOn a { b with groups := m } :=
  movesOn_trans h (movesOn_of rfl)
theorem movesOn_bumpTags (h : movesOn a b) (ck : Nat) : movesOn a (b.bumpTags ck) := movesOn_trans h (movesOn_of rfl)
theorem movesOn_free (h : movesOn a b) : movesOn a b.free.2 := movesOn_trans h (movesOn_of rfl)
theorem movesOn_newId (h : movesOn a b) : movesOn a b.newId.2 := movesOn_trans h (movesOn_of rfl)
theorem movesOn_leaveRdv (h : movesOn a b) (th : Nat) : movesOn a (b.leaveRdv th) := movesOn_trans h (movesOn_of rfl)

/-- A fold of steps that each only move on. -/
theorem movesOn_foldl {α : Type} {f : State → α → State} (hf : ∀ s x, movesOn s (f s x)) (h : movesOn a b) (l : List α) :
    movesOn a (l.foldl f b) := by
  induction l generalizing b with
  | nil => exact h
  | cons x l ih => exact ih (movesOn_trans h (hf b x))

/-- A context's teams stop counting (R264). -/
theorem movesOn_stopContext (h : movesOn a b) (ck : Nat) : movesOn a (b.stopContext ck) := by
  unfold State.stopContext
  refine movesOn_foldl (fun s e => ?_) h _
  split
  · exact movesOn_updTeam (movesOn_refl s) ..
  · exact movesOn_refl s

/-- s61 and s62 may be written (R225). -/
theorem movesOn_sset (h : movesOn a b) (wk : Nat) {r : Nat} (x : W64) (hr : r = 61 ∨ r = 62) : movesOn a (b.sset wk r x) := by
  refine movesOn_trans h ⟨?_, fun wk' r' hr' h61 h62 => ?_⟩
  · unfold State.sset
    split <;> rfl
  · rw [sget_sset b x (by omega) hr', if_neg]
    rintro ⟨-, e⟩
    omega

/-- A ready thread goes into the bucket table or the arrival list (R253). -/
theorem movesOn_placeReady (h : movesOn a b) (th : Nat) : movesOn a (b.placeReady th) := by
  unfold State.placeReady
  split
  · exact h
  · dsimp only
    split
    · exact movesOn_updThread h ..
    · exact movesOn_updCore (movesOn_updThread h ..) ..

/-- One thread out of a group: its latches go, and a SLEEP or YIELD goes with it. -/
theorem movesOn_outOf (h : movesOn a b) (gid th : Nat) : movesOn a (b.outOf gid th) := by
  unfold State.outOf
  split
  · exact h
  · dsimp only
    split
    · exact movesOn_updGroup h ..
    · exact movesOn_updThread (movesOn_updGroup h ..) ..

theorem movesOn_leaveArrivals (h : movesOn a b) (th : Nat) : movesOn a (b.leaveArrivals th) := by
  unfold State.leaveArrivals
  dsimp only
  split
  · exact movesOn_updCore h ..
  · exact h

theorem movesOn_admitArrivals (l : List Nat) (core : Nat) (h : movesOn a b) : movesOn a (admitArrivals l core b) := by
  induction l generalizing b with
  | nil => exact h
  | cons th ths ih =>
    unfold admitArrivals
    split
    · exact ih (movesOn_updCore h ..)
    · split
      · exact ih (movesOn_updCore h ..)
      · dsimp only
        split
        · exact ih (movesOn_updCore (movesOn_updThread h ..) ..)
        · exact h

theorem movesOn_pumpTable (h : movesOn a b) (core : Nat) : movesOn a (b.pumpTable core) := movesOn_admitArrivals _ _ h

theorem movesOn_leaveGroup (h : movesOn a b) (th : Nat) : movesOn a (b.leaveGroup th) := by
  unfold State.leaveGroup
  split
  · split
    · exact movesOn_outOf h ..
    · exact movesOn_outOf h ..
    · exact h
  · exact h

theorem movesOn_stopThread (h : movesOn a b) (th : Nat) : movesOn a (b.stopThread th) := by
  unfold State.stopThread
  exact movesOn_updThread (movesOn_leaveRdv (movesOn_leaveArrivals (movesOn_leaveGroup h _) _) _) ..

theorem movesOn_enterHandler (h : movesOn a b) (r : TrapReq) (x : W64) : movesOn a (b.enterHandler r x) := by
  unfold State.enterHandler
  exact movesOn_placeReady (movesOn_updThread h ..) _

theorem movesOn_supervisor (h : movesOn a b) (r : TrapReq) (pc : Option W64) : movesOn a (b.supervisor r pc) := by
  unfold State.supervisor
  dsimp only
  have h0 := movesOn_updThread h r.th (fun t => { t with stat := .held, inTable := false, frec := r.rec_ })
  split
  · split
    · exact h0
    · split
      · exact movesOn_updCtx (movesOn_free h0) ..
      · exact movesOn_bumpTags (movesOn_stopContext (movesOn_updCtx (movesOn_free h0) ..) _) _
  · exact h0

theorem movesOn_trapTravel (h : movesOn a b) (r : TrapReq) : movesOn a (b.trapTravel r) := by
  unfold State.trapTravel
  split
  · exact movesOn_enterHandler (movesOn_updThread h ..) ..
  · exact movesOn_supervisor h ..
  · exact h

theorem movesOn_enterWarp (h : movesOn a b) (wk : Nat) (rs : List TrapReq) : movesOn a (b.enterWarp wk rs) := by
  unfold State.enterWarp
  dsimp only
  split
  · exact movesOn_foldl (fun s r => movesOn_supervisor (movesOn_refl s) ..) h _
  · refine movesOn_foldl (fun s r => movesOn_enterHandler (movesOn_refl s) ..) ?_ _
    refine movesOn_sset (movesOn_sset ?_ _ _ (Or.inl rfl)) _ _ (Or.inr rfl)
    exact movesOn_foldl (fun s r => movesOn_supervisor (movesOn_refl s) ..) h _

theorem movesOn_trapWarp (h : movesOn a b) (wk : Nat) (rs : List TrapReq) : movesOn a (b.trapWarp wk rs) := by
  unfold State.trapWarp
  split
  · exact h
  · dsimp only
    split
    · exact movesOn_updWarp (movesOn_enterWarp h ..) ..
    · exact movesOn_enterWarp h ..

/-- Traps delivered stop and redirect threads, and write nothing but s61 and s62 (R225). -/
theorem movesOn_deliver (h : movesOn a b) (rs : List TrapReq) : movesOn a (b.deliver rs) := by
  unfold State.deliver
  dsimp only
  refine movesOn_foldl (fun s wk => ?_) (movesOn_foldl (fun s r => movesOn_stopThread (movesOn_refl s) _) h _) _
  split
  · exact movesOn_foldl (fun s r => movesOn_trapTravel (movesOn_refl s) _) (movesOn_refl s) _
  · exact movesOn_trapWarp (movesOn_refl s) ..

/-- A clause begins: a group is formed, or its threads trap (R33, R50). -/
theorem movesOn_beginClause (h : movesOn a b) (core tk : Nat) (ths : List Nat) (x : W64) :
    movesOn a (b.beginClause core tk ths x) := by
  unfold State.beginClause
  split
  · exact h
  · dsimp only
    refine movesOn_pumpTable (movesOn_deliver ?_ _) _
    split
    · exact h
    · refine movesOn_groups ?_ _
      exact movesOn_foldl (fun s th => movesOn_updThread (movesOn_refl s) ..) (movesOn_newId h) _

/-- A warp's count that has run out leaves its threads owing a TIMER (R104). -/
theorem movesOn_expireTimer (h : movesOn a b) (wk : Nat) : movesOn a (b.expireTimer wk) := by
  unfold State.expireTimer
  split
  · exact h
  · split
    · exact movesOn_trans h (movesOn_of rfl)
    · exact h

theorem movesOn_atBoundary (h : movesOn a b) (th : Nat) : movesOn a (b.atBoundary th) := by
  unfold State.atBoundary
  split
  · exact h
  · dsimp only
    split
    · exact movesOn_deliver (movesOn_updThread (movesOn_expireTimer h _) ..) _
    · split
      · exact movesOn_deliver (movesOn_updThread (movesOn_expireTimer h _) ..) _
      · exact movesOn_placeReady (movesOn_expireTimer h _) _

theorem movesOn_goSleep (h : movesOn a b) (th : Nat) (n : W32) : movesOn a (b.goSleep th n) := by
  unfold State.goSleep
  split
  · exact h
  · split
    · exact movesOn_atBoundary (movesOn_updThread h ..) _
    · split
      · exact movesOn_atBoundary (movesOn_updTeam h ..) _
      · exact movesOn_updThread h ..

theorem movesOn_regroup (h : movesOn a b) (gid : Nat) (g : Group) (rest : List Nat) : movesOn a (b.regroup gid g rest) := by
  unfold State.regroup
  dsimp only
  have hf : ∀ (s : State) (th : Nat), movesOn s ((s.updThread th (fun t => { t with stat := .ready })).atBoundary th) :=
    fun s th => movesOn_atBoundary (movesOn_updThread (movesOn_refl s) ..) _
  have h0 := movesOn_groups h (SMap.del b.groups gid)
  split
  · split
    · exact h0
    · split
      · exact movesOn_foldl hf h0 _
      · exact movesOn_beginClause (movesOn_foldl hf h0 _) ..
  · exact movesOn_foldl hf h0 _

theorem movesOn_leavePark (h : movesOn a b) (gid : Nat) (g : Group) : movesOn a (b.leavePark gid g) := by
  unfold State.leavePark
  dsimp only
  refine movesOn_foldl (fun s th => movesOn_atBoundary (movesOn_refl s) _) ?_ _
  exact movesOn_foldl (fun s p => movesOn_goSleep (movesOn_refl s) ..) (movesOn_regroup h ..) _

/-- The end of a clause moves threads on, and writes no register but s61 and s62 (R75, R76). -/
theorem movesOn_endClause (h : movesOn a b) (gid : Nat) (g : Group) : movesOn a (b.endClause gid g) := by
  unfold State.endClause
  dsimp only
  have h0 : movesOn a (g.threads.foldl (fun s th =>
      if g.moved.contains th then s else s.updThread th (fun t => { t with pc := g.nextHead })) b) := by
    refine movesOn_foldl (fun s th => ?_) h _
    split
    · exact movesOn_refl s
    · exact movesOn_updThread (movesOn_refl s) ..
  have hp : ∀ (s : State) (k : Nat) (l : List Nat) (q : Group), movesOn a s → movesOn a
      (l.foldl (fun (s : State) th => s.updThread th (fun t => { t with stat := .yielding k })) { s with groups := SMap.ins s.groups k q }) :=
    fun s k l q hs => movesOn_foldl (fun s th => movesOn_updThread (movesOn_refl s) ..) (movesOn_groups hs _) _
  split
  · exact movesOn_groups h0 _
  · split
    · split
      · exact movesOn_leavePark h0 ..
      · exact hp _ _ _ _ h0
    · split
      · exact movesOn_leavePark h0 ..
      · exact hp _ _ _ _ (movesOn_leavePark (movesOn_newId h0) ..)

/-- A team's first instruction is noted (R264). -/
theorem movesOn_begun (h : movesOn a b) (tk : Nat) : movesOn a (b.begun tk) := movesOn_updTeam h ..

theorem movesOn_noteIssue (h : movesOn a b) (gid : Nat) : movesOn a (b.noteIssue gid) := by
  unfold State.noteIssue
  split
  · exact movesOn_updCore (movesOn_begun h _) ..
  · exact h

theorem movesOn_advance (h : movesOn a b) (gid : Nat) : movesOn a (b.advance gid) := by
  unfold State.advance
  split
  · exact h
  · split
    · exact movesOn_groups h _
    · split
      · exact movesOn_updGroup h ..
      · exact movesOn_endClause h ..

end Sys2Proof.Machine
end

