-- ==== Sys2Proof/Laws/Integers.lean ====
section
/-!
SUPPORT. The model's integer helpers say what R51, R52 and R90 say.
-/
namespace Sys2Proof.Machine

/-- A source at its type's width, as an integer. -/
theorem intOf_eq (t : Ty) (x : W64) : intOf t.isSigned (tyW t) (x.toNat % 2 ^ tyW t) = intIn t x := by
  have := x.isLt
  unfold intOf intIn tyW lo32
  cases t <;> simp [Ty.is64, Ty.isSigned, BitVec.toInt_eq_toNat_cond, BitVec.toNat_setWidth] <;> (try split) <;> (try omega)

/-- Saturation is the nearest value of the range. -/
theorem satTo_eq (t : Ty) (x : Int) : satTo t.isSigned (tyW t) x = clampIn t x := by
  unfold satTo clampIn tyW
  cases t <;> simp [Ty.is64, Ty.isSigned]

/-- An exact integer wrapped to a type's width and extended. -/
theorem extendTo_wrapTo (t : Ty) (x : Int) : extendTo t (wrapTo (tyW t) x) = extendIn t (BitVec.ofInt 64 x) := by
  unfold extendTo extendIn wrapTo tyW lo32 intOf
  apply BitVec.eq_of_toNat_eq
  cases t <;> simp [Ty.is64, BitVec.toNat_ofInt, BitVec.toNat_signExtend, BitVec.msb_eq_decide] <;>
    (try split) <;> (try split) <;> (try omega)

/-- A wrapped or saturated result, extended. -/
theorem extendTo_narrowInt (t : Ty) (sat : Bool) (x : Int) :
    extendTo t (narrowInt t.isSigned sat (tyW t) x) = resultIn t sat x := by
  unfold narrowInt resultIn
  rw [satTo_eq, extendTo_wrapTo]

/-- A scalar source after a write of another warp's register. -/
theorem sop_sset (s : State) {wk wk' : Nat} (t : Ty) {d : Nat} (r : RegField) (x : W64) (h : wk ≠ wk') (hd : d < 64) (hr : r.toNat < 64) :
    (s.sset wk' d x).sop wk t r = s.sop wk t r := by
  unfold State.sop
  rw [sget_sset s x hd hr, if_neg (fun c => h c.1)]

end Sys2Proof.Machine
end

