-- ==== Sys2Proof/Laws/Memory.lean ====
section
/-!
SUPPORT. Physical memory: every operation that writes it keeps its canonical form, a byte written reads back, and every other byte stays.
-/
namespace Sys2Proof.Machine

open SMap

theorem reset_mem_wf : Memory.wf State.reset.mem = true := rfl

/-- Every byte of reset memory reads zero. -/
theorem reset_byte (a : Nat) : State.reset.byte a = 0 := rfl

@[simp] theorem byte_setByte_same (s : State) (a : Nat) (b : Byte) : (s.setByte a b).byte a = b := by
  simp [State.byte, State.setByte]

theorem byte_setByte_other (s : State) {a x : Nat} (b : Byte) (h : x ≠ a) : (s.setByte a b).byte x = s.byte x :=
  read_write_other 0 s.mem b h

theorem wf_setByte {s : State} (a : Nat) (b : Byte) (h : Memory.wf s.mem = true) : Memory.wf (s.setByte a b).mem = true :=
  canon_write a b h

theorem wf_putMem {bs : List Byte} : ∀ {s : State} {a : Nat}, Memory.wf s.mem = true → Memory.wf (s.putMem a bs).mem = true := by
  induction bs with
  | nil => intro s a h; exact h
  | cons b bs ih => intro s a h; exact ih (wf_setByte a b h)

theorem wf_eraseGroup {s : State} (g : Nat) (h : Memory.wf s.mem = true) : Memory.wf (s.eraseGroup g).mem = true :=
  canon_keep (fun k _ => decide (k / 2 ^ 34 ≠ g)) h

theorem wf_eraseGroups {s : State} (x : W64) (h : Memory.wf s.mem = true) : Memory.wf (s.eraseGroups x).mem = true := by
  unfold State.eraseGroups
  generalize bitList x = l
  induction l generalizing s with
  | nil => exact h
  | cons g l ih => exact ih (wf_eraseGroup g h)

/-- A run of bytes written reads back, and every byte outside it stays. -/
theorem byte_putMem {bs : List Byte} : ∀ (s : State) (a x : Nat),
    (s.putMem a bs).byte x = if a ≤ x ∧ x < a + bs.length then (bs[x - a]?).getD 0 else s.byte x := by
  induction bs with
  | nil => intro s a x; simp [State.putMem]
  | cons b bs ih =>
    intro s a x
    rw [State.putMem, ih]
    by_cases h : x = a
    · subst h
      rw [if_neg (by omega), byte_setByte_same, if_pos (by simp)]; simp
    · rw [byte_setByte_other s b h]
      by_cases h2 : a + 1 ≤ x ∧ x < a + 1 + bs.length
      · obtain ⟨k, hk⟩ : ∃ k, x - a = k + 1 := ⟨x - a - 1, by omega⟩
        have h3 : x - (a + 1) = k := by omega
        have h4 : a ≤ x ∧ x < a + (b :: bs).length := by simp; omega
        rw [if_pos h2, if_pos h4, h3, hk]; simp
      · have h4 : ¬(a ≤ x ∧ x < a + (b :: bs).length) := by simp; omega
        rw [if_neg h2, if_neg h4]

/-- Writing memory changes nothing but memory. -/
theorem putMem_frame (bs : List Byte) : ∀ (s : State) (a : Nat), s.putMem a bs = { s with mem := (s.putMem a bs).mem } := by
  induction bs with
  | nil => intro s a; rfl
  | cons b bs ih => intro s a; rw [State.putMem, ih]; rfl

/-- A scratchpad byte written reads back. -/
@[simp] theorem scrByte_setScr_same (s : State) (o a : Nat) (b : Byte) : (s.setScr o a b).scrByte o a = b := by
  simp [State.scrByte, State.setScr]

/-- Every other scratchpad byte stays. -/
theorem scrByte_setScr_other (s : State) {o a o' a' : Nat} (b : Byte) (h : scrKey o' a' ≠ scrKey o a) :
    (s.setScr o a b).scrByte o' a' = s.scrByte o' a' := read_write_other 0 s.scr b h

end Sys2Proof.Machine
end

