-- ==== Sys2Proof/Laws/PerInstr.lean ====
section
/-!
SUPPORT. What is stated of every instruction as syntax: each word an instruction is written as carries its OP in bits [63:56] (R37). Events
have no word.
-/
namespace Sys2Proof.Laws.Coding

/-- Every word of an instruction carries its OP (R37). -/
def Statement (i : Instr) : Prop := ∀ w ∈ encode i, i.op = some (bits w 56 8)

theorem nop (g : Guard) : Statement (.nop g) := fun _ h => by rw [List.mem_singleton.mp h, nop_op]; rfl
theorem sadd (f : Sr) : Statement (.sadd f) := fun _ h => by rw [List.mem_singleton.mp h, sr_op]; rfl
theorem ssub (f : Sr) : Statement (.ssub f) := fun _ h => by rw [List.mem_singleton.mp h, sr_op]; rfl
theorem smul (f : Sr) : Statement (.smul f) := fun _ h => by rw [List.mem_singleton.mp h, sr_op]; rfl
theorem smulh (f : Sr) : Statement (.smulh f) := fun _ h => by rw [List.mem_singleton.mp h, sr_op]; rfl
theorem sdiv (f : Sr) : Statement (.sdiv f) := fun _ h => by rw [List.mem_singleton.mp h, sr_op]; rfl
theorem smin (f : Sr) : Statement (.smin f) := fun _ h => by rw [List.mem_singleton.mp h, sr_op]; rfl
theorem smax (f : Sr) : Statement (.smax f) := fun _ h => by rw [List.mem_singleton.mp h, sr_op]; rfl
theorem sand (f : Sr) : Statement (.sand f) := fun _ h => by rw [List.mem_singleton.mp h, sr_op]; rfl
theorem sor (f : Sr) : Statement (.sor f) := fun _ h => by rw [List.mem_singleton.mp h, sr_op]; rfl
theorem sxor (f : Sr) : Statement (.sxor f) := fun _ h => by rw [List.mem_singleton.mp h, sr_op]; rfl
theorem sshl (f : Sr) : Statement (.sshl f) := fun _ h => by rw [List.mem_singleton.mp h, sr_op]; rfl
theorem sshr (f : Sr) : Statement (.sshr f) := fun _ h => by rw [List.mem_singleton.mp h, sr_op]; rfl
theorem sbfx (f : Sr) : Statement (.sbfx f) := fun _ h => by rw [List.mem_singleton.mp h, sr_op]; rfl
theorem sbfi (f : Sr) : Statement (.sbfi f) := fun _ h => by rw [List.mem_singleton.mp h, sr_op]; rfl
theorem sclz (f : Sr) : Statement (.sclz f) := fun _ h => by rw [List.mem_singleton.mp h, sr_op]; rfl
theorem spopc (f : Sr) : Statement (.spopc f) := fun _ h => by rw [List.mem_singleton.mp h, sr_op]; rfl
theorem sset (f : Sr) : Statement (.sset f) := fun _ h => by rw [List.mem_singleton.mp h, sr_op]; rfl
theorem ssel (f : Sr) : Statement (.ssel f) := fun _ h => by rw [List.mem_singleton.mp h, sr_op]; rfl
theorem smov (f : Sr) : Statement (.smov f) := fun _ h => by rw [List.mem_singleton.mp h, sr_op]; rfl
theorem smovi (f : Im) : Statement (.smovi f) := fun _ h => by rw [List.mem_singleton.mp h, im_op]; rfl
theorem smovhi (f : Im) : Statement (.smovhi f) := fun _ h => by rw [List.mem_singleton.mp h, im_op]; rfl
theorem saddi (f : Im) : Statement (.saddi f) := fun _ h => by rw [List.mem_singleton.mp h, im_op]; rfl
theorem vrdlane (f : Sr) : Statement (.vrdlane f) := fun _ h => by rw [List.mem_singleton.mp h, sr_op]; rfl
theorem vwrlane (f : Sr) : Statement (.vwrlane f) := fun _ h => by rw [List.mem_singleton.mp h, sr_op]; rfl
theorem ballot (f : Sr) : Statement (.ballot f) := fun _ h => by rw [List.mem_singleton.mp h, sr_op]; rfl
theorem pfrom (f : Sr) : Statement (.pfrom f) := fun _ h => by rw [List.mem_singleton.mp h, sr_op]; rfl
theorem plog (f : Sr) : Statement (.plog f) := fun _ h => by rw [List.mem_singleton.mp h, sr_op]; rfl
theorem srd (f : Yf) : Statement (.srd f) := fun _ h => by rw [List.mem_singleton.mp h, yf_op]; rfl
theorem swr (f : Yf) : Statement (.swr f) := fun _ h => by rw [List.mem_singleton.mp h, yf_op]; rfl
theorem bra (f : Ct) : Statement (.bra f) := fun _ h => by rw [List.mem_singleton.mp h, ct_op]; rfl
theorem brx (f : Ct) : Statement (.brx f) := fun _ h => by rw [List.mem_singleton.mp h, ct_op]; rfl
theorem call (f : Ct) : Statement (.call f) := fun _ h => by rw [List.mem_singleton.mp h, ct_op]; rfl
theorem callx (f : Ct) : Statement (.callx f) := fun _ h => by rw [List.mem_singleton.mp h, ct_op]; rfl
theorem ret (f : Ct) : Statement (.ret f) := fun _ h => by rw [List.mem_singleton.mp h, ct_op]; rfl
theorem mkjoin (f : Sr) : Statement (.mkjoin f) := fun _ h => by rw [List.mem_singleton.mp h, sr_op]; rfl
theorem join (f : Sr) : Statement (.join f) := fun _ h => by rw [List.mem_singleton.mp h, sr_op]; rfl
theorem exit (f : Ct) : Statement (.exit f) := fun _ h => by rw [List.mem_singleton.mp h, ct_op]; rfl
theorem yield (f : Sr) : Statement (.yield f) := fun _ h => by rw [List.mem_singleton.mp h, sr_op]; rfl
theorem mbrd (f : Yf) : Statement (.mbrd f) := fun _ h => by rw [List.mem_singleton.mp h, yf_op]; rfl
theorem mbwr (f : Yf) : Statement (.mbwr f) := fun _ h => by rw [List.mem_singleton.mp h, yf_op]; rfl
theorem sleep (f : Im) : Statement (.sleep f) := fun _ h => by rw [List.mem_singleton.mp h, im_op]; rfl
theorem evsig (f : Im) : Statement (.evsig f) := fun _ h => by rw [List.mem_singleton.mp h, im_op]; rfl
theorem vadd (f : Vr) : Statement (.vadd f) := fun _ h => by rw [List.mem_singleton.mp h, vr_op]; rfl
theorem vsub (f : Vr) : Statement (.vsub f) := fun _ h => by rw [List.mem_singleton.mp h, vr_op]; rfl
theorem vmul (f : Vr) : Statement (.vmul f) := fun _ h => by rw [List.mem_singleton.mp h, vr_op]; rfl
theorem vmulh (f : Vr) : Statement (.vmulh f) := fun _ h => by rw [List.mem_singleton.mp h, vr_op]; rfl
theorem vmad (f : Vr) : Statement (.vmad f) := fun _ h => by rw [List.mem_singleton.mp h, vr_op]; rfl
theorem vmin (f : Vr) : Statement (.vmin f) := fun _ h => by rw [List.mem_singleton.mp h, vr_op]; rfl
theorem vmax (f : Vr) : Statement (.vmax f) := fun _ h => by rw [List.mem_singleton.mp h, vr_op]; rfl
theorem vabsd (f : Vr) : Statement (.vabsd f) := fun _ h => by rw [List.mem_singleton.mp h, vr_op]; rfl
theorem vand (f : Vr) : Statement (.vand f) := fun _ h => by rw [List.mem_singleton.mp h, vr_op]; rfl
theorem vor (f : Vr) : Statement (.vor f) := fun _ h => by rw [List.mem_singleton.mp h, vr_op]; rfl
theorem vxor (f : Vr) : Statement (.vxor f) := fun _ h => by rw [List.mem_singleton.mp h, vr_op]; rfl
theorem vshl (f : Vr) : Statement (.vshl f) := fun _ h => by rw [List.mem_singleton.mp h, vr_op]; rfl
theorem vshr (f : Vr) : Statement (.vshr f) := fun _ h => by rw [List.mem_singleton.mp h, vr_op]; rfl
theorem vbfx (f : Vr) : Statement (.vbfx f) := fun _ h => by rw [List.mem_singleton.mp h, vr_op]; rfl
theorem vbfi (f : Vr) : Statement (.vbfi f) := fun _ h => by rw [List.mem_singleton.mp h, vr_op]; rfl
theorem vclz (f : Vr) : Statement (.vclz f) := fun _ h => by rw [List.mem_singleton.mp h, vr_op]; rfl
theorem vpopc (f : Vr) : Statement (.vpopc f) := fun _ h => by rw [List.mem_singleton.mp h, vr_op]; rfl
theorem vaddc (f : Vr) : Statement (.vaddc f) := fun _ h => by rw [List.mem_singleton.mp h, vr_op]; rfl
theorem vdot4 (f : Vr) : Statement (.vdot4 f) := fun _ h => by rw [List.mem_singleton.mp h, vr_op]; rfl
theorem vperm (f : Vr) : Statement (.vperm f) := fun _ h => by rw [List.mem_singleton.mp h, vr_op]; rfl
theorem vshfl (f : Vr) : Statement (.vshfl f) := fun _ h => by rw [List.mem_singleton.mp h, vr_op]; rfl
theorem vmbcnt (f : Vr) : Statement (.vmbcnt f) := fun _ h => by rw [List.mem_singleton.mp h, vr_op]; rfl
theorem vcmp (f : Vr) : Statement (.vcmp f) := fun _ h => by rw [List.mem_singleton.mp h, vr_op]; rfl
theorem vsel (f : Vr) : Statement (.vsel f) := fun _ h => by rw [List.mem_singleton.mp h, vr_op]; rfl
theorem vmov (f : Vr) : Statement (.vmov f) := fun _ h => by rw [List.mem_singleton.mp h, vr_op]; rfl
theorem vmovi (f : Im) : Statement (.vmovi f) := fun _ h => by rw [List.mem_singleton.mp h, im_op]; rfl
theorem vaddi (f : Im) : Statement (.vaddi f) := fun _ h => by rw [List.mem_singleton.mp h, im_op]; rfl
theorem vfadd (f : Vr) : Statement (.vfadd f) := fun _ h => by rw [List.mem_singleton.mp h, vr_op]; rfl
theorem vfsub (f : Vr) : Statement (.vfsub f) := fun _ h => by rw [List.mem_singleton.mp h, vr_op]; rfl
theorem vfmul (f : Vr) : Statement (.vfmul f) := fun _ h => by rw [List.mem_singleton.mp h, vr_op]; rfl
theorem vfma (f : Vr) : Statement (.vfma f) := fun _ h => by rw [List.mem_singleton.mp h, vr_op]; rfl
theorem vfmin (f : Vr) : Statement (.vfmin f) := fun _ h => by rw [List.mem_singleton.mp h, vr_op]; rfl
theorem vfmax (f : Vr) : Statement (.vfmax f) := fun _ h => by rw [List.mem_singleton.mp h, vr_op]; rfl
theorem vfsgn (f : Vr) : Statement (.vfsgn f) := fun _ h => by rw [List.mem_singleton.mp h, vr_op]; rfl
theorem vfcmp (f : Vr) : Statement (.vfcmp f) := fun _ h => by rw [List.mem_singleton.mp h, vr_op]; rfl
theorem vfclass (f : Vr) : Statement (.vfclass f) := fun _ h => by rw [List.mem_singleton.mp h, vr_op]; rfl
theorem vfrnd (f : Vr) : Statement (.vfrnd f) := fun _ h => by rw [List.mem_singleton.mp h, vr_op]; rfl
theorem vfldx (f : Vr) : Statement (.vfldx f) := fun _ h => by rw [List.mem_singleton.mp h, vr_op]; rfl
theorem vfdiv (f : Vr) : Statement (.vfdiv f) := fun _ h => by rw [List.mem_singleton.mp h, vr_op]; rfl
theorem vfsqrt (f : Vr) : Statement (.vfsqrt f) := fun _ h => by rw [List.mem_singleton.mp h, vr_op]; rfl
theorem vfrcp (f : Vr) : Statement (.vfrcp f) := fun _ h => by rw [List.mem_singleton.mp h, vr_op]; rfl
theorem vfrsq (f : Vr) : Statement (.vfrsq f) := fun _ h => by rw [List.mem_singleton.mp h, vr_op]; rfl
theorem vfexp2 (f : Vr) : Statement (.vfexp2 f) := fun _ h => by rw [List.mem_singleton.mp h, vr_op]; rfl
theorem vflog2 (f : Vr) : Statement (.vflog2 f) := fun _ h => by rw [List.mem_singleton.mp h, vr_op]; rfl
theorem vftanh (f : Vr) : Statement (.vftanh f) := fun _ h => by rw [List.mem_singleton.mp h, vr_op]; rfl
theorem vfsigm (f : Vr) : Statement (.vfsigm f) := fun _ h => by rw [List.mem_singleton.mp h, vr_op]; rfl
theorem vcvt (f : Vr) : Statement (.vcvt f) := fun _ h => by rw [List.mem_singleton.mp h, vr_op]; rfl
theorem vcvt8 (f : Vr) : Statement (.vcvt8 f) := fun _ h => by rw [List.mem_singleton.mp h, vr_op]; rfl
theorem vcvtmx (f : Vr) : Statement (.vcvtmx f) := fun _ h => by rw [List.mem_singleton.mp h, vr_op]; rfl
theorem ld (f : Me) : Statement (.ld f) := fun _ h => by rw [List.mem_singleton.mp h, me_op]; rfl
theorem st (f : Me) : Statement (.st f) := fun _ h => by rw [List.mem_singleton.mp h, me_op]; rfl
theorem sld (f : Me) : Statement (.sld f) := fun _ h => by rw [List.mem_singleton.mp h, me_op]; rfl
theorem sst (f : Me) : Statement (.sst f) := fun _ h => by rw [List.mem_singleton.mp h, me_op]; rfl
theorem lds (f : Me) : Statement (.lds f) := fun _ h => by rw [List.mem_singleton.mp h, me_op]; rfl
theorem sts (f : Me) : Statement (.sts f) := fun _ h => by rw [List.mem_singleton.mp h, me_op]; rfl
theorem ldx (f : Me) : Statement (.ldx f) := fun _ h => by rw [List.mem_singleton.mp h, me_op]; rfl
theorem stx (f : Me) : Statement (.stx f) := fun _ h => by rw [List.mem_singleton.mp h, me_op]; rfl
theorem stcmp (f : Me) : Statement (.stcmp f) := fun _ h => by rw [List.mem_singleton.mp h, me_op]; rfl
theorem ldexp (f : Me) : Statement (.ldexp f) := fun _ h => by rw [List.mem_singleton.mp h, me_op]; rfl
theorem pref (f : Me) : Statement (.pref f) := fun _ h => by rw [List.mem_singleton.mp h, me_op]; rfl
theorem linv (f : Me) : Statement (.linv f) := fun _ h => by rw [List.mem_singleton.mp h, me_op]; rfl
theorem fence (f : Me) : Statement (.fence f) := fun _ h => by rw [List.mem_singleton.mp h, me_op]; rfl
theorem atom (f : Ma) : Statement (.atom f) := fun _ h => by rw [List.mem_singleton.mp h, ma_op]; rfl
theorem acas (f : Ma) : Statement (.acas f) := fun _ h => by rw [List.mem_singleton.mp h, ma_op]; rfl
theorem atoms (f : Ma) : Statement (.atoms f) := fun _ h => by rw [List.mem_singleton.mp h, ma_op]; rfl
theorem acass (f : Ma) : Statement (.acass f) := fun _ h => by rw [List.mem_singleton.mp h, ma_op]; rfl
theorem xopen (f : Ma) : Statement (.xopen f) := fun _ h => by rw [List.mem_singleton.mp h, ma_op]; rfl
theorem xclose (f : Ma) : Statement (.xclose f) := fun _ h => by rw [List.mem_singleton.mp h, ma_op]; rfl
theorem fld (f : En) : Statement (.fld f) := fun _ h => by rw [List.mem_singleton.mp h, en_op]; rfl
theorem fst (f : En) : Statement (.fst f) := fun _ h => by rw [List.mem_singleton.mp h, en_op]; rfl
theorem mma (f : En) : Statement (.mma f) := fun _ h => by rw [List.mem_singleton.mp h, en_op]; rfl
theorem mstat (f : En) : Statement (.mstat f) := fun _ h => by rw [List.mem_singleton.mp h, en_op]; rfl
theorem cpyin (f : En) : Statement (.cpyin f) := fun _ h => by rw [List.mem_singleton.mp h, en_op]; rfl
theorem cpyst (f : En) : Statement (.cpyst f) := fun _ h => by rw [List.mem_singleton.mp h, en_op]; rfl
theorem cpyx (f : En) : Statement (.cpyx f) := fun _ h => by rw [List.mem_singleton.mp h, en_op]; rfl
theorem cpyg (f : En) : Statement (.cpyg f) := fun _ h => by rw [List.mem_singleton.mp h, en_op]; rfl
theorem cpyr (f : En) : Statement (.cpyr f) := fun _ h => by rw [List.mem_singleton.mp h, en_op]; rfl
theorem bndset (f : En) : Statement (.bndset f) := fun _ h => by rw [List.mem_singleton.mp h, en_op]; rfl
theorem bndget (f : En) : Statement (.bndget f) := fun _ h => by rw [List.mem_singleton.mp h, en_op]; rfl
theorem bndsel (f : En) : Statement (.bndsel f) := fun _ h => by rw [List.mem_singleton.mp h, en_op]; rfl
theorem twait (f : En) : Statement (.twait f) := fun _ h => by rw [List.mem_singleton.mp h, en_op]; rfl
theorem tpoll (f : En) : Statement (.tpoll f) := fun _ h => by rw [List.mem_singleton.mp h, en_op]; rfl
theorem bar (f : Yf) : Statement (.bar f) := fun _ h => by rw [List.mem_singleton.mp h, yf_op]; rfl
theorem bararv (f : Yf) : Statement (.bararv f) := fun _ h => by rw [List.mem_singleton.mp h, yf_op]; rfl
theorem barwt (f : Yf) : Statement (.barwt f) := fun _ h => by rw [List.mem_singleton.mp h, yf_op]; rfl
theorem barq (f : Yf) : Statement (.barq f) := fun _ h => by rw [List.mem_singleton.mp h, yf_op]; rfl
theorem fork (f : En) : Statement (.fork f) := fun _ h => by rw [List.mem_singleton.mp h, en_op]; rfl
theorem fjoin (f : Yf) : Statement (.fjoin f) := fun _ h => by rw [List.mem_singleton.mp h, yf_op]; rfl
theorem dqpush (f : Sr) : Statement (.dqpush f) := fun _ h => by rw [List.mem_singleton.mp h, sr_op]; rfl
theorem dqpop (f : Sr) : Statement (.dqpop f) := fun _ h => by rw [List.mem_singleton.mp h, sr_op]; rfl
theorem dqsteal (f : Sr) : Statement (.dqsteal f) := fun _ h => by rw [List.mem_singleton.mp h, sr_op]; rfl
theorem msend (f : En) : Statement (.msend f) := fun _ h => by rw [List.mem_singleton.mp h, en_op]; rfl
theorem mrecv (f : En) : Statement (.mrecv f) := fun _ h => by rw [List.mem_singleton.mp h, en_op]; rfl
theorem mprobe (f : En) : Statement (.mprobe f) := fun _ h => by rw [List.mem_singleton.mp h, en_op]; rfl
theorem go (f : Ct) : Statement (.go f) := fun _ h => by rw [List.mem_singleton.mp h, ct_op]; rfl
theorem gox (f : Ct) : Statement (.gox f) := fun _ h => by rw [List.mem_singleton.mp h, ct_op]; rfl
theorem segrep (f : En) : Statement (.segrep f) := fun _ h => by rw [List.mem_singleton.mp h, en_op]; rfl
theorem boost (f : Yf) : Statement (.boost f) := fun _ h => by rw [List.mem_singleton.mp h, yf_op]; rfl
theorem boostq (f : Yf) : Statement (.boostq f) := fun _ h => by rw [List.mem_singleton.mp h, yf_op]; rfl
theorem trap (f : Yf) : Statement (.trap f) := fun _ h => by rw [List.mem_singleton.mp h, yf_op]; rfl
theorem rtr (f : Ct) : Statement (.rtr f) := fun _ h => by rw [List.mem_singleton.mp h, ct_op]; rfl
theorem rqrd (f : Yf) : Statement (.rqrd f) := fun _ h => by rw [List.mem_singleton.mp h, yf_op]; rfl
theorem rqwr (f : Yf) : Statement (.rqwr f) := fun _ h => by rw [List.mem_singleton.mp h, yf_op]; rfl
theorem sysrd (f : Yf) : Statement (.sysrd f) := fun _ h => by rw [List.mem_singleton.mp h, yf_op]; rfl
theorem syswr (f : Yf) : Statement (.syswr f) := fun _ h => by rw [List.mem_singleton.mp h, yf_op]; rfl
theorem evGroupForm : ∀ (core : Nat), Statement (.evGroupForm core) := fun _ => nofun
theorem evLoadReturn : ∀ (op : Nat) (lanes : BitVec 32) (pieces : Nat) (l1 fill : Bool) (errs : List ErrArg), Statement (.evLoadReturn op lanes pieces l1 fill errs) := fun _ _ _ _ _ _ => nofun
theorem evStoreDrain : ∀ (warp : Nat), Statement (.evStoreDrain warp) := fun _ => nofun
theorem evWritePerformed : ∀ (id : Nat) (pkg request fill : Bool), Statement (.evWritePerformed id pkg request fill) := fun _ _ _ _ => nofun
theorem evServiceWarpRequest : ∀ (inst clus : Nat), Statement (.evServiceWarpRequest inst clus) := fun _ _ => nofun
theorem evQntApply : ∀ (op : Nat), Statement (.evQntApply op) := fun _ => nofun
theorem evDeferredFault : ∀ (op : Nat) (merged : Bool), Statement (.evDeferredFault op merged) := fun _ _ => nofun
theorem evExtentMissResolved : ∀ (warp entry victim : Nat), Statement (.evExtentMissResolved warp entry victim) := fun _ _ _ => nofun
theorem evMmaPass : ∀ (op : Nat) (faulty : List (Nat × Nat)) (resid : Resid), Statement (.evMmaPass op faulty resid) := fun _ _ _ => nofun
theorem evCopyPass : ∀ (op : Nat), Statement (.evCopyPass op) := fun _ => nofun
theorem evCpyrAck : ∀ (op : Nat), Statement (.evCpyrAck op) := fun _ => nofun
theorem evLinkFailure : ∀ (port : Nat), Statement (.evLinkFailure port) := fun _ => nofun
theorem evForkAccept : ∀ (fork : Nat) (room rings : Bool), Statement (.evForkAccept fork room rings) := fun _ _ _ => nofun
theorem evFjoinResume : ∀ (team : Nat), Statement (.evFjoinResume team) := fun _ => nofun
theorem evTeamRetire : ∀ (team : Nat), Statement (.evTeamRetire team) := fun _ => nofun
theorem evMessageArrival : ∀ (n : Nat), Statement (.evMessageArrival n) := fun _ => nofun
theorem evParcelEnqueue : ∀ (n : Nat), Statement (.evParcelEnqueue n) := fun _ => nofun
theorem evParcelSpill : ∀ (n : Nat), Statement (.evParcelSpill n) := fun _ => nofun
theorem evParcelAdmit : ∀ (core lane : Nat), Statement (.evParcelAdmit core lane) := fun _ _ => nofun
theorem evRingDrain : ∀ (core : Nat), Statement (.evRingDrain core) := fun _ => nofun
theorem evSegrepComplete : ∀ (id : Nat), Statement (.evSegrepComplete id) := fun _ => nofun
theorem evSeghot : ∀ (grid seg : Nat), Statement (.evSeghot grid seg) := fun _ _ => nofun
theorem evWtimerExpire : ∀ (warp : Nat), Statement (.evWtimerExpire warp) := fun _ => nofun
theorem evSleepTimeout : ∀ (th : Nat), Statement (.evSleepTimeout th) := fun _ => nofun
theorem evSlewResume : ∀ (clus : Nat), Statement (.evSlewResume clus) := fun _ => nofun
theorem evHang : ∀ (ctx : Nat), Statement (.evHang ctx) := fun _ => nofun
theorem evTeamPlace : ∀ (part : Nat), Statement (.evTeamPlace part) := fun _ => nofun
theorem evTeamProtection : ∀ (team : Nat), Statement (.evTeamProtection team) := fun _ => nofun
theorem evSliceEnd : ∀ (part : Nat), Statement (.evSliceEnd part) := fun _ => nofun
theorem evSoftDrainDeadline : ∀ (ctx : Nat), Statement (.evSoftDrainDeadline ctx) := fun _ => nofun
theorem evHaltComplete : ∀ (ctx : Nat), Statement (.evHaltComplete ctx) := fun _ => nofun
theorem evHardHaltLimit : ∀ (ctx : Nat), Statement (.evHardHaltLimit ctx) := fun _ => nofun
theorem evContextRestore : ∀ (part : Nat), Statement (.evContextRestore part) := fun _ => nofun
theorem evFeModeWrite : ∀ (part via : Nat) (v : BitVec 64) (rings : Bool), Statement (.evFeModeWrite part via v rings) := fun _ _ _ _ => nofun
theorem evCtxCreate : ∀ (part via : Nat) (v : BitVec 64), Statement (.evCtxCreate part via v) := fun _ _ _ => nofun
theorem evCtxDestroy : ∀ (part via : Nat) (v : BitVec 64), Statement (.evCtxDestroy part via v) := fun _ _ _ => nofun
theorem evGraphLoad : ∀ (part via : Nat) (v : BitVec 64), Statement (.evGraphLoad part via v) := fun _ _ _ => nofun
theorem evGraphUnload : ∀ (part via : Nat) (v : BitVec 64), Statement (.evGraphUnload part via v) := fun _ _ _ => nofun
theorem evGraphDone : ∀ (part : Nat) (room : Bool), Statement (.evGraphDone part room) := fun _ _ => nofun
theorem evTrigger : ∀ (part via : Nat) (v : BitVec 64), Statement (.evTrigger part via v) := fun _ _ _ => nofun
theorem evRunStart : ∀ (ctx : Nat), Statement (.evRunStart ctx) := fun _ => nofun
theorem evNodeLaunch : ∀ (ctx : Nat) (rings : Bool), Statement (.evNodeLaunch ctx rings) := fun _ _ => nofun
theorem evRingHeadWrite : ∀ (ring via : Nat) (v : BitVec 64), Statement (.evRingHeadWrite ring via v) := fun _ _ _ => nofun
theorem evRingInterruptTimer : ∀ (ring : Nat), Statement (.evRingInterruptTimer ring) := fun _ => nofun
theorem evMbInWrite : ∀ (part via n : Nat) (v : BitVec 64), Statement (.evMbInWrite part via n v) := fun _ _ _ _ => nofun
theorem evMbOutRead : ∀ (part via n : Nat), Statement (.evMbOutRead part via n) := fun _ _ _ => nofun
theorem evMbStatClear : ∀ (part via : Nat) (v : BitVec 64), Statement (.evMbStatClear part via v) := fun _ _ _ => nofun
theorem evRegisterWrite : ∀ (via vf off : Nat) (v : BitVec 64) (rings : Bool), Statement (.evRegisterWrite via vf off v rings) := fun _ _ _ _ _ => nofun
theorem evUnsupportedRequest : ∀ (via vf off size : Nat), Statement (.evUnsupportedRequest via vf off size) := fun _ _ _ _ => nofun
theorem evWatchCtlWrite : ∀ (ctx via n : Nat) (v : BitVec 64), Statement (.evWatchCtlWrite ctx via n v) := fun _ _ _ _ => nofun
theorem evErrStatusClear : ∀ (v : BitVec 64), Statement (.evErrStatusClear v) := fun _ => nofun
theorem evGetVersion : Statement .evGetVersion := nofun
theorem evGetCapabilities : Statement .evGetCapabilities := nofun
theorem evNegotiateAlgorithms : ∀ (named : List SpdmAlg), Statement (.evNegotiateAlgorithms named) := fun _ => nofun
theorem evGetDigests : Statement .evGetDigests := nofun
theorem evGetCertificate : ∀ (slot off len : Nat), Statement (.evGetCertificate slot off len) := fun _ _ _ => nofun
theorem evChallenge : ∀ (slot nonce : Nat), Statement (.evChallenge slot nonce) := fun _ _ => nofun
theorem evGetMeasurements : ∀ (index : Nat), Statement (.evGetMeasurements index) := fun _ => nofun
theorem evKeyExchange : ∀ (slot : Nat), Statement (.evKeyExchange slot) := fun _ => nofun
theorem evFinish : ∀ (proof : Bool), Statement (.evFinish proof) := fun _ => nofun
theorem evHeartbeat : Statement .evHeartbeat := nofun
theorem evKeyUpdate : Statement .evKeyUpdate := nofun
theorem evEndSession : Statement .evEndSession := nofun
theorem evIdeKm : ∀ (fn : Nat) (secure : Bool), Statement (.evIdeKm fn secure) := fun _ _ => nofun
theorem evLockInterface : ∀ (part : Nat), Statement (.evLockInterface part) := fun _ => nofun
theorem evStartInterface : ∀ (part : Nat), Statement (.evStartInterface part) := fun _ => nofun
theorem evStopInterface : ∀ (part : Nat), Statement (.evStopInterface part) := fun _ => nofun
theorem evIdeIntegrityFailure : ∀ (fn : Nat), Statement (.evIdeIntegrityFailure fn) := fun _ => nofun
theorem evVfEnableClear : Statement .evVfEnableClear := nofun
theorem evPortCtlWrite : ∀ (port : Nat) (v : BitVec 64), Statement (.evPortCtlWrite port v) := fun _ _ => nofun
theorem evPortLinkChange : ∀ (port link : Nat), Statement (.evPortLinkChange port link) := fun _ _ => nofun
theorem evRoceSend : ∀ (port qp src : Nat) (payload : List (BitVec 8)), Statement (.evRoceSend port qp src payload) := fun _ _ _ _ => nofun
theorem evRdmaWrite : ∀ (port qp key va : Nat) (data : List (BitVec 8)), Statement (.evRdmaWrite port qp key va data) := fun _ _ _ _ _ => nofun
theorem evRdmaRead : ∀ (port qp key va len : Nat), Statement (.evRdmaRead port qp key va len) := fun _ _ _ _ _ => nofun
theorem evPeerWrite : ∀ (port ctx va : Nat) (data : List (BitVec 8)), Statement (.evPeerWrite port ctx va data) := fun _ _ _ _ => nofun
theorem evStatus : Statement .evStatus := nofun
theorem evLog : ∀ (off : Nat), Statement (.evLog off) := fun _ => nofun
theorem evFwBegin : ∀ (len : Nat), Statement (.evFwBegin len) := fun _ => nofun
theorem evFwChunk : ∀ (len : Nat), Statement (.evFwChunk len) := fun _ => nofun
theorem evFwCommit : Statement .evFwCommit := nofun
theorem evFwCommitDone : Statement .evFwCommitDone := nofun
theorem evReset : ∀ (found : AssayArg), Statement (.evReset found) := fun _ => nofun
theorem evQpSet : Statement .evQpSet := nofun
theorem evQpClear : ∀ (qp : Nat), Statement (.evQpClear qp) := fun _ => nofun
theorem evKeySet : Statement .evKeySet := nofun
theorem evKeyClear : ∀ (key : Nat), Statement (.evKeyClear key) := fun _ => nofun
theorem evPowerOn : ∀ (found : AssayArg), Statement (.evPowerOn found) := fun _ => nofun
theorem evPowerLoss : Statement .evPowerLoss := nofun
theorem evThermalStep : ∀ (phys temp : Nat), Statement (.evThermalStep phys temp) := fun _ _ => nofun
theorem evThermalShutdown : ∀ (phys temp : Nat), Statement (.evThermalShutdown phys temp) := fun _ _ => nofun
theorem evThermalRelease : ∀ (phys temp : Nat), Statement (.evThermalRelease phys temp) := fun _ _ => nofun
theorem evPowerIntervalBoundary : ∀ (ms : List Meas), Statement (.evPowerIntervalBoundary ms) := fun _ => nofun
theorem evVoltageSettled : ∀ (clus : Nat), Statement (.evVoltageSettled clus) := fun _ => nofun
theorem evPhaseFail : ∀ (phys phase : Nat), Statement (.evPhaseFail phys phase) := fun _ _ => nofun
theorem evBumpSuspect : ∀ (phys group drop : Nat), Statement (.evBumpSuspect phys group drop) := fun _ _ _ => nofun
theorem evCanary : ∀ (phys : Nat), Statement (.evCanary phys) := fun _ => nofun
theorem evClusterPowerUp : ∀ (phys : Nat) (fits : Bool), Statement (.evClusterPowerUp phys fits) := fun _ _ => nofun
theorem evInrushRecheck : ∀ (phys : Nat) (fits : Bool), Statement (.evInrushRecheck phys fits) := fun _ _ => nofun
theorem evInrushSlow : ∀ (phys : Nat), Statement (.evInrushSlow phys) := fun _ => nofun
theorem evRampEnd : ∀ (phys : Nat), Statement (.evRampEnd phys) := fun _ => nofun
theorem evAnneal : ∀ (die sector : Nat) (cal : List Nat) (past : List (Nat × Nat)), Statement (.evAnneal die sector cal past) := fun _ _ _ _ => nofun
theorem evBilletCall : ∀ (die : Nat), Statement (.evBilletCall die) := fun _ => nofun
theorem evBilletTestDone : ∀ (die : Nat) (pass : Bool) (cal : BilletFound), Statement (.evBilletTestDone die pass cal) := fun _ _ _ => nofun
theorem evWearAccrual : ∀ (ms : List WearMeas), Statement (.evWearAccrual ms) := fun _ => nofun
theorem evJournalWrite : Statement .evJournalWrite := nofun
theorem evCheckpoint : Statement .evCheckpoint := nofun
theorem evBudgetRefill : ∀ (part : Nat), Statement (.evBudgetRefill part) := fun _ => nofun
theorem evHmCtlGen : ∀ (v : BitVec 64), Statement (.evHmCtlGen v) := fun _ => nofun
theorem evHallmarkDone : Statement .evHallmarkDone := nofun
theorem evScrubRead : ∀ (unit : Nat) (errs : List ErrArg) (last : Bool), Statement (.evScrubRead unit errs last) := fun _ _ _ => nofun
theorem evScrubWriteback : ∀ (unit : Nat), Statement (.evScrubWriteback unit) := fun _ => nofun
theorem evScrubDeadline : ∀ (unit : Nat), Statement (.evScrubDeadline unit) := fun _ => nofun
theorem evPartitionDirectWrite : ∀ (part reg : Nat) (v : BitVec 64), Statement (.evPartitionDirectWrite part reg v) := fun _ _ _ => nofun
theorem evResizeRequest : ∀ (part : Nat) (v : BitVec 64), Statement (.evResizeRequest part v) := fun _ _ => nofun
theorem evResizeCancel : ∀ (part : Nat) (v : BitVec 64), Statement (.evResizeCancel part v) := fun _ _ => nofun
theorem evResizeQuiescing : Statement .evResizeQuiescing := nofun
theorem evResizeMigrating : Statement .evResizeMigrating := nofun
theorem evResizeDeadline : Statement .evResizeDeadline := nofun
theorem evResizeRemapping : Statement .evResizeRemapping := nofun
theorem evResizeRehashing : Statement .evResizeRehashing := nofun
theorem evResizeShootdown : Statement .evResizeShootdown := nofun
theorem evResizeDone : Statement .evResizeDone := nofun
theorem evInvQueue : ∀ (v : BitVec 64), Statement (.evInvQueue v) := fun _ => nofun
theorem evInvCommandStart : Statement .evInvCommandStart := nofun
theorem evInvDone : Statement .evInvDone := nofun
theorem evHintMismatch : ∀ (grid range lookups misses remote die : Nat), Statement (.evHintMismatch grid range lookups misses remote die) := fun _ _ _ _ _ _ => nofun
theorem evQuotaRebalance : ∀ (colour : Nat) (gains losses : List Nat), Statement (.evQuotaRebalance colour gains losses) := fun _ _ _ => nofun
theorem evModuleReset : ∀ (found : AssayArg), Statement (.evModuleReset found) := fun _ => nofun
theorem evScrubTakeover : ∀ (unit : Nat) (behind : Bool), Statement (.evScrubTakeover unit behind) := fun _ _ => nofun

end Sys2Proof.Laws.Coding
end

