-- ==== Sys2Proof/Laws/State.lean ====
section
/-!
SUPPORT. What each named update of the state leaves alone, field by field, and what it changes, so that no later proof unfolds a record update.
-/
namespace Sys2Proof.Machine

open SMap

/-! `updThread` changes `threads` alone. -/

@[simp] theorem State.updThread_now (s : State) (k : Nat) (f : Thread → Thread) : (s.updThread k f).now = s.now := rfl
@[simp] theorem State.updThread_agenda (s : State) (k : Nat) (f : Thread → Thread) : (s.updThread k f).agenda = s.agenda := rfl
@[simp] theorem State.updThread_cur (s : State) (k : Nat) (f : Thread → Thread) : (s.updThread k f).cur = s.cur := rfl
@[simp] theorem State.updThread_nid (s : State) (k : Nat) (f : Thread → Thread) : (s.updThread k f).nid = s.nid := rfl
@[simp] theorem State.updThread_fc (s : State) (k : Nat) (f : Thread → Thread) : (s.updThread k f).fc = s.fc := rfl
@[simp] theorem State.updThread_v (s : State) (k : Nat) (f : Thread → Thread) : (s.updThread k f).v = s.v := rfl
@[simp] theorem State.updThread_sr (s : State) (k : Nat) (f : Thread → Thread) : (s.updThread k f).sr = s.sr := rfl
@[simp] theorem State.updThread_pr (s : State) (k : Nat) (f : Thread → Thread) : (s.updThread k f).pr = s.pr := rfl
@[simp] theorem State.updThread_vbusy (s : State) (k : Nat) (f : Thread → Thread) : (s.updThread k f).vbusy = s.vbusy := rfl
@[simp] theorem State.updThread_sbusy (s : State) (k : Nat) (f : Thread → Thread) : (s.updThread k f).sbusy = s.sbusy := rfl
@[simp] theorem State.updThread_vown (s : State) (k : Nat) (f : Thread → Thread) : (s.updThread k f).vown = s.vown := rfl
@[simp] theorem State.updThread_vread (s : State) (k : Nat) (f : Thread → Thread) : (s.updThread k f).vread = s.vread := rfl
@[simp] theorem State.updThread_vbad (s : State) (k : Nat) (f : Thread → Thread) : (s.updThread k f).vbad = s.vbad := rfl
@[simp] theorem State.updThread_sbad (s : State) (k : Nat) (f : Thread → Thread) : (s.updThread k f).sbad = s.sbad := rfl
@[simp] theorem State.updThread_armed (s : State) (k : Nat) (f : Thread → Thread) : (s.updThread k f).armed = s.armed := rfl
@[simp] theorem State.updThread_warps (s : State) (k : Nat) (f : Thread → Thread) : (s.updThread k f).warps = s.warps := rfl
@[simp] theorem State.updThread_teams (s : State) (k : Nat) (f : Thread → Thread) : (s.updThread k f).teams = s.teams := rfl
@[simp] theorem State.updThread_grids (s : State) (k : Nat) (f : Thread → Thread) : (s.updThread k f).grids = s.grids := rfl
@[simp] theorem State.updThread_codes (s : State) (k : Nat) (f : Thread → Thread) : (s.updThread k f).codes = s.codes := rfl
@[simp] theorem State.updThread_groups (s : State) (k : Nat) (f : Thread → Thread) : (s.updThread k f).groups = s.groups := rfl
@[simp] theorem State.updThread_rdvs (s : State) (k : Nat) (f : Thread → Thread) : (s.updThread k f).rdvs = s.rdvs := rfl
@[simp] theorem State.updThread_bars (s : State) (k : Nat) (f : Thread → Thread) : (s.updThread k f).bars = s.bars := rfl
@[simp] theorem State.updThread_cores (s : State) (k : Nat) (f : Thread → Thread) : (s.updThread k f).cores = s.cores := rfl
@[simp] theorem State.updThread_clusters (s : State) (k : Nat) (f : Thread → Thread) : (s.updThread k f).clusters = s.clusters := rfl
@[simp] theorem State.updThread_ops (s : State) (k : Nat) (f : Thread → Thread) : (s.updThread k f).ops = s.ops := rfl
@[simp] theorem State.updThread_pend (s : State) (k : Nat) (f : Thread → Thread) : (s.updThread k f).pend = s.pend := rfl
@[simp] theorem State.updThread_eng (s : State) (k : Nat) (f : Thread → Thread) : (s.updThread k f).eng = s.eng := rfl
@[simp] theorem State.updThread_mem (s : State) (k : Nat) (f : Thread → Thread) : (s.updThread k f).mem = s.mem := rfl
@[simp] theorem State.updThread_bad (s : State) (k : Nat) (f : Thread → Thread) : (s.updThread k f).bad = s.bad := rfl
@[simp] theorem State.updThread_scr (s : State) (k : Nat) (f : Thread → Thread) : (s.updThread k f).scr = s.scr := rfl
@[simp] theorem State.updThread_l1 (s : State) (k : Nat) (f : Thread → Thread) : (s.updThread k f).l1 = s.l1 := rfl
@[simp] theorem State.updThread_ctxs (s : State) (k : Nat) (f : Thread → Thread) : (s.updThread k f).ctxs = s.ctxs := rfl
@[simp] theorem State.updThread_rings (s : State) (k : Nat) (f : Thread → Thread) : (s.updThread k f).rings = s.rings := rfl
@[simp] theorem State.updThread_fes (s : State) (k : Nat) (f : Thread → Thread) : (s.updThread k f).fes = s.fes := rfl
@[simp] theorem State.updThread_csr (s : State) (k : Nat) (f : Thread → Thread) : (s.updThread k f).csr = s.csr := rfl
@[simp] theorem State.updThread_phys (s : State) (k : Nat) (f : Thread → Thread) : (s.updThread k f).phys = s.phys := rfl
@[simp] theorem State.updThread_off (s : State) (k : Nat) (f : Thread → Thread) : (s.updThread k f).off = s.off := rfl
@[simp] theorem State.updThread_l2 (s : State) (k : Nat) (f : Thread → Thread) : (s.updThread k f).l2 = s.l2 := rfl
@[simp] theorem State.updThread_extUse (s : State) (k : Nat) (f : Thread → Thread) : (s.updThread k f).extUse = s.extUse := rfl
@[simp] theorem State.updThread_made (s : State) (k : Nat) (f : Thread → Thread) : (s.updThread k f).made = s.made := rfl
@[simp] theorem State.updThread_roce (s : State) (k : Nat) (f : Thread → Thread) : (s.updThread k f).roce = s.roce := rfl

/-! `updWarp` changes `warps` alone. -/

@[simp] theorem State.updWarp_now (s : State) (k : Nat) (f : Warp → Warp) : (s.updWarp k f).now = s.now := rfl
@[simp] theorem State.updWarp_agenda (s : State) (k : Nat) (f : Warp → Warp) : (s.updWarp k f).agenda = s.agenda := rfl
@[simp] theorem State.updWarp_cur (s : State) (k : Nat) (f : Warp → Warp) : (s.updWarp k f).cur = s.cur := rfl
@[simp] theorem State.updWarp_nid (s : State) (k : Nat) (f : Warp → Warp) : (s.updWarp k f).nid = s.nid := rfl
@[simp] theorem State.updWarp_fc (s : State) (k : Nat) (f : Warp → Warp) : (s.updWarp k f).fc = s.fc := rfl
@[simp] theorem State.updWarp_v (s : State) (k : Nat) (f : Warp → Warp) : (s.updWarp k f).v = s.v := rfl
@[simp] theorem State.updWarp_sr (s : State) (k : Nat) (f : Warp → Warp) : (s.updWarp k f).sr = s.sr := rfl
@[simp] theorem State.updWarp_pr (s : State) (k : Nat) (f : Warp → Warp) : (s.updWarp k f).pr = s.pr := rfl
@[simp] theorem State.updWarp_vbusy (s : State) (k : Nat) (f : Warp → Warp) : (s.updWarp k f).vbusy = s.vbusy := rfl
@[simp] theorem State.updWarp_sbusy (s : State) (k : Nat) (f : Warp → Warp) : (s.updWarp k f).sbusy = s.sbusy := rfl
@[simp] theorem State.updWarp_vown (s : State) (k : Nat) (f : Warp → Warp) : (s.updWarp k f).vown = s.vown := rfl
@[simp] theorem State.updWarp_vread (s : State) (k : Nat) (f : Warp → Warp) : (s.updWarp k f).vread = s.vread := rfl
@[simp] theorem State.updWarp_vbad (s : State) (k : Nat) (f : Warp → Warp) : (s.updWarp k f).vbad = s.vbad := rfl
@[simp] theorem State.updWarp_sbad (s : State) (k : Nat) (f : Warp → Warp) : (s.updWarp k f).sbad = s.sbad := rfl
@[simp] theorem State.updWarp_armed (s : State) (k : Nat) (f : Warp → Warp) : (s.updWarp k f).armed = s.armed := rfl
@[simp] theorem State.updWarp_threads (s : State) (k : Nat) (f : Warp → Warp) : (s.updWarp k f).threads = s.threads := rfl
@[simp] theorem State.updWarp_teams (s : State) (k : Nat) (f : Warp → Warp) : (s.updWarp k f).teams = s.teams := rfl
@[simp] theorem State.updWarp_grids (s : State) (k : Nat) (f : Warp → Warp) : (s.updWarp k f).grids = s.grids := rfl
@[simp] theorem State.updWarp_codes (s : State) (k : Nat) (f : Warp → Warp) : (s.updWarp k f).codes = s.codes := rfl
@[simp] theorem State.updWarp_groups (s : State) (k : Nat) (f : Warp → Warp) : (s.updWarp k f).groups = s.groups := rfl
@[simp] theorem State.updWarp_rdvs (s : State) (k : Nat) (f : Warp → Warp) : (s.updWarp k f).rdvs = s.rdvs := rfl
@[simp] theorem State.updWarp_bars (s : State) (k : Nat) (f : Warp → Warp) : (s.updWarp k f).bars = s.bars := rfl
@[simp] theorem State.updWarp_cores (s : State) (k : Nat) (f : Warp → Warp) : (s.updWarp k f).cores = s.cores := rfl
@[simp] theorem State.updWarp_clusters (s : State) (k : Nat) (f : Warp → Warp) : (s.updWarp k f).clusters = s.clusters := rfl
@[simp] theorem State.updWarp_ops (s : State) (k : Nat) (f : Warp → Warp) : (s.updWarp k f).ops = s.ops := rfl
@[simp] theorem State.updWarp_pend (s : State) (k : Nat) (f : Warp → Warp) : (s.updWarp k f).pend = s.pend := rfl
@[simp] theorem State.updWarp_eng (s : State) (k : Nat) (f : Warp → Warp) : (s.updWarp k f).eng = s.eng := rfl
@[simp] theorem State.updWarp_mem (s : State) (k : Nat) (f : Warp → Warp) : (s.updWarp k f).mem = s.mem := rfl
@[simp] theorem State.updWarp_bad (s : State) (k : Nat) (f : Warp → Warp) : (s.updWarp k f).bad = s.bad := rfl
@[simp] theorem State.updWarp_scr (s : State) (k : Nat) (f : Warp → Warp) : (s.updWarp k f).scr = s.scr := rfl
@[simp] theorem State.updWarp_l1 (s : State) (k : Nat) (f : Warp → Warp) : (s.updWarp k f).l1 = s.l1 := rfl
@[simp] theorem State.updWarp_ctxs (s : State) (k : Nat) (f : Warp → Warp) : (s.updWarp k f).ctxs = s.ctxs := rfl
@[simp] theorem State.updWarp_rings (s : State) (k : Nat) (f : Warp → Warp) : (s.updWarp k f).rings = s.rings := rfl
@[simp] theorem State.updWarp_fes (s : State) (k : Nat) (f : Warp → Warp) : (s.updWarp k f).fes = s.fes := rfl
@[simp] theorem State.updWarp_csr (s : State) (k : Nat) (f : Warp → Warp) : (s.updWarp k f).csr = s.csr := rfl
@[simp] theorem State.updWarp_phys (s : State) (k : Nat) (f : Warp → Warp) : (s.updWarp k f).phys = s.phys := rfl
@[simp] theorem State.updWarp_off (s : State) (k : Nat) (f : Warp → Warp) : (s.updWarp k f).off = s.off := rfl
@[simp] theorem State.updWarp_l2 (s : State) (k : Nat) (f : Warp → Warp) : (s.updWarp k f).l2 = s.l2 := rfl
@[simp] theorem State.updWarp_extUse (s : State) (k : Nat) (f : Warp → Warp) : (s.updWarp k f).extUse = s.extUse := rfl
@[simp] theorem State.updWarp_made (s : State) (k : Nat) (f : Warp → Warp) : (s.updWarp k f).made = s.made := rfl
@[simp] theorem State.updWarp_roce (s : State) (k : Nat) (f : Warp → Warp) : (s.updWarp k f).roce = s.roce := rfl

/-! `updTeam` changes `teams` alone. -/

@[simp] theorem State.updTeam_now (s : State) (k : Nat) (f : Team → Team) : (s.updTeam k f).now = s.now := rfl
@[simp] theorem State.updTeam_agenda (s : State) (k : Nat) (f : Team → Team) : (s.updTeam k f).agenda = s.agenda := rfl
@[simp] theorem State.updTeam_cur (s : State) (k : Nat) (f : Team → Team) : (s.updTeam k f).cur = s.cur := rfl
@[simp] theorem State.updTeam_nid (s : State) (k : Nat) (f : Team → Team) : (s.updTeam k f).nid = s.nid := rfl
@[simp] theorem State.updTeam_fc (s : State) (k : Nat) (f : Team → Team) : (s.updTeam k f).fc = s.fc := rfl
@[simp] theorem State.updTeam_v (s : State) (k : Nat) (f : Team → Team) : (s.updTeam k f).v = s.v := rfl
@[simp] theorem State.updTeam_sr (s : State) (k : Nat) (f : Team → Team) : (s.updTeam k f).sr = s.sr := rfl
@[simp] theorem State.updTeam_pr (s : State) (k : Nat) (f : Team → Team) : (s.updTeam k f).pr = s.pr := rfl
@[simp] theorem State.updTeam_vbusy (s : State) (k : Nat) (f : Team → Team) : (s.updTeam k f).vbusy = s.vbusy := rfl
@[simp] theorem State.updTeam_sbusy (s : State) (k : Nat) (f : Team → Team) : (s.updTeam k f).sbusy = s.sbusy := rfl
@[simp] theorem State.updTeam_vown (s : State) (k : Nat) (f : Team → Team) : (s.updTeam k f).vown = s.vown := rfl
@[simp] theorem State.updTeam_vread (s : State) (k : Nat) (f : Team → Team) : (s.updTeam k f).vread = s.vread := rfl
@[simp] theorem State.updTeam_vbad (s : State) (k : Nat) (f : Team → Team) : (s.updTeam k f).vbad = s.vbad := rfl
@[simp] theorem State.updTeam_sbad (s : State) (k : Nat) (f : Team → Team) : (s.updTeam k f).sbad = s.sbad := rfl
@[simp] theorem State.updTeam_armed (s : State) (k : Nat) (f : Team → Team) : (s.updTeam k f).armed = s.armed := rfl
@[simp] theorem State.updTeam_threads (s : State) (k : Nat) (f : Team → Team) : (s.updTeam k f).threads = s.threads := rfl
@[simp] theorem State.updTeam_warps (s : State) (k : Nat) (f : Team → Team) : (s.updTeam k f).warps = s.warps := rfl
@[simp] theorem State.updTeam_grids (s : State) (k : Nat) (f : Team → Team) : (s.updTeam k f).grids = s.grids := rfl
@[simp] theorem State.updTeam_codes (s : State) (k : Nat) (f : Team → Team) : (s.updTeam k f).codes = s.codes := rfl
@[simp] theorem State.updTeam_groups (s : State) (k : Nat) (f : Team → Team) : (s.updTeam k f).groups = s.groups := rfl
@[simp] theorem State.updTeam_rdvs (s : State) (k : Nat) (f : Team → Team) : (s.updTeam k f).rdvs = s.rdvs := rfl
@[simp] theorem State.updTeam_bars (s : State) (k : Nat) (f : Team → Team) : (s.updTeam k f).bars = s.bars := rfl
@[simp] theorem State.updTeam_cores (s : State) (k : Nat) (f : Team → Team) : (s.updTeam k f).cores = s.cores := rfl
@[simp] theorem State.updTeam_clusters (s : State) (k : Nat) (f : Team → Team) : (s.updTeam k f).clusters = s.clusters := rfl
@[simp] theorem State.updTeam_ops (s : State) (k : Nat) (f : Team → Team) : (s.updTeam k f).ops = s.ops := rfl
@[simp] theorem State.updTeam_pend (s : State) (k : Nat) (f : Team → Team) : (s.updTeam k f).pend = s.pend := rfl
@[simp] theorem State.updTeam_eng (s : State) (k : Nat) (f : Team → Team) : (s.updTeam k f).eng = s.eng := rfl
@[simp] theorem State.updTeam_mem (s : State) (k : Nat) (f : Team → Team) : (s.updTeam k f).mem = s.mem := rfl
@[simp] theorem State.updTeam_bad (s : State) (k : Nat) (f : Team → Team) : (s.updTeam k f).bad = s.bad := rfl
@[simp] theorem State.updTeam_scr (s : State) (k : Nat) (f : Team → Team) : (s.updTeam k f).scr = s.scr := rfl
@[simp] theorem State.updTeam_l1 (s : State) (k : Nat) (f : Team → Team) : (s.updTeam k f).l1 = s.l1 := rfl
@[simp] theorem State.updTeam_ctxs (s : State) (k : Nat) (f : Team → Team) : (s.updTeam k f).ctxs = s.ctxs := rfl
@[simp] theorem State.updTeam_rings (s : State) (k : Nat) (f : Team → Team) : (s.updTeam k f).rings = s.rings := rfl
@[simp] theorem State.updTeam_fes (s : State) (k : Nat) (f : Team → Team) : (s.updTeam k f).fes = s.fes := rfl
@[simp] theorem State.updTeam_csr (s : State) (k : Nat) (f : Team → Team) : (s.updTeam k f).csr = s.csr := rfl
@[simp] theorem State.updTeam_phys (s : State) (k : Nat) (f : Team → Team) : (s.updTeam k f).phys = s.phys := rfl
@[simp] theorem State.updTeam_off (s : State) (k : Nat) (f : Team → Team) : (s.updTeam k f).off = s.off := rfl
@[simp] theorem State.updTeam_l2 (s : State) (k : Nat) (f : Team → Team) : (s.updTeam k f).l2 = s.l2 := rfl
@[simp] theorem State.updTeam_extUse (s : State) (k : Nat) (f : Team → Team) : (s.updTeam k f).extUse = s.extUse := rfl
@[simp] theorem State.updTeam_made (s : State) (k : Nat) (f : Team → Team) : (s.updTeam k f).made = s.made := rfl
@[simp] theorem State.updTeam_roce (s : State) (k : Nat) (f : Team → Team) : (s.updTeam k f).roce = s.roce := rfl

/-! `updGrid` changes `grids` alone. -/

@[simp] theorem State.updGrid_now (s : State) (k : Nat) (f : Grid → Grid) : (s.updGrid k f).now = s.now := rfl
@[simp] theorem State.updGrid_agenda (s : State) (k : Nat) (f : Grid → Grid) : (s.updGrid k f).agenda = s.agenda := rfl
@[simp] theorem State.updGrid_cur (s : State) (k : Nat) (f : Grid → Grid) : (s.updGrid k f).cur = s.cur := rfl
@[simp] theorem State.updGrid_nid (s : State) (k : Nat) (f : Grid → Grid) : (s.updGrid k f).nid = s.nid := rfl
@[simp] theorem State.updGrid_fc (s : State) (k : Nat) (f : Grid → Grid) : (s.updGrid k f).fc = s.fc := rfl
@[simp] theorem State.updGrid_v (s : State) (k : Nat) (f : Grid → Grid) : (s.updGrid k f).v = s.v := rfl
@[simp] theorem State.updGrid_sr (s : State) (k : Nat) (f : Grid → Grid) : (s.updGrid k f).sr = s.sr := rfl
@[simp] theorem State.updGrid_pr (s : State) (k : Nat) (f : Grid → Grid) : (s.updGrid k f).pr = s.pr := rfl
@[simp] theorem State.updGrid_vbusy (s : State) (k : Nat) (f : Grid → Grid) : (s.updGrid k f).vbusy = s.vbusy := rfl
@[simp] theorem State.updGrid_sbusy (s : State) (k : Nat) (f : Grid → Grid) : (s.updGrid k f).sbusy = s.sbusy := rfl
@[simp] theorem State.updGrid_vown (s : State) (k : Nat) (f : Grid → Grid) : (s.updGrid k f).vown = s.vown := rfl
@[simp] theorem State.updGrid_vread (s : State) (k : Nat) (f : Grid → Grid) : (s.updGrid k f).vread = s.vread := rfl
@[simp] theorem State.updGrid_vbad (s : State) (k : Nat) (f : Grid → Grid) : (s.updGrid k f).vbad = s.vbad := rfl
@[simp] theorem State.updGrid_sbad (s : State) (k : Nat) (f : Grid → Grid) : (s.updGrid k f).sbad = s.sbad := rfl
@[simp] theorem State.updGrid_armed (s : State) (k : Nat) (f : Grid → Grid) : (s.updGrid k f).armed = s.armed := rfl
@[simp] theorem State.updGrid_threads (s : State) (k : Nat) (f : Grid → Grid) : (s.updGrid k f).threads = s.threads := rfl
@[simp] theorem State.updGrid_warps (s : State) (k : Nat) (f : Grid → Grid) : (s.updGrid k f).warps = s.warps := rfl
@[simp] theorem State.updGrid_teams (s : State) (k : Nat) (f : Grid → Grid) : (s.updGrid k f).teams = s.teams := rfl
@[simp] theorem State.updGrid_codes (s : State) (k : Nat) (f : Grid → Grid) : (s.updGrid k f).codes = s.codes := rfl
@[simp] theorem State.updGrid_groups (s : State) (k : Nat) (f : Grid → Grid) : (s.updGrid k f).groups = s.groups := rfl
@[simp] theorem State.updGrid_rdvs (s : State) (k : Nat) (f : Grid → Grid) : (s.updGrid k f).rdvs = s.rdvs := rfl
@[simp] theorem State.updGrid_bars (s : State) (k : Nat) (f : Grid → Grid) : (s.updGrid k f).bars = s.bars := rfl
@[simp] theorem State.updGrid_cores (s : State) (k : Nat) (f : Grid → Grid) : (s.updGrid k f).cores = s.cores := rfl
@[simp] theorem State.updGrid_clusters (s : State) (k : Nat) (f : Grid → Grid) : (s.updGrid k f).clusters = s.clusters := rfl
@[simp] theorem State.updGrid_ops (s : State) (k : Nat) (f : Grid → Grid) : (s.updGrid k f).ops = s.ops := rfl
@[simp] theorem State.updGrid_pend (s : State) (k : Nat) (f : Grid → Grid) : (s.updGrid k f).pend = s.pend := rfl
@[simp] theorem State.updGrid_eng (s : State) (k : Nat) (f : Grid → Grid) : (s.updGrid k f).eng = s.eng := rfl
@[simp] theorem State.updGrid_mem (s : State) (k : Nat) (f : Grid → Grid) : (s.updGrid k f).mem = s.mem := rfl
@[simp] theorem State.updGrid_bad (s : State) (k : Nat) (f : Grid → Grid) : (s.updGrid k f).bad = s.bad := rfl
@[simp] theorem State.updGrid_scr (s : State) (k : Nat) (f : Grid → Grid) : (s.updGrid k f).scr = s.scr := rfl
@[simp] theorem State.updGrid_l1 (s : State) (k : Nat) (f : Grid → Grid) : (s.updGrid k f).l1 = s.l1 := rfl
@[simp] theorem State.updGrid_ctxs (s : State) (k : Nat) (f : Grid → Grid) : (s.updGrid k f).ctxs = s.ctxs := rfl
@[simp] theorem State.updGrid_rings (s : State) (k : Nat) (f : Grid → Grid) : (s.updGrid k f).rings = s.rings := rfl
@[simp] theorem State.updGrid_fes (s : State) (k : Nat) (f : Grid → Grid) : (s.updGrid k f).fes = s.fes := rfl
@[simp] theorem State.updGrid_csr (s : State) (k : Nat) (f : Grid → Grid) : (s.updGrid k f).csr = s.csr := rfl
@[simp] theorem State.updGrid_phys (s : State) (k : Nat) (f : Grid → Grid) : (s.updGrid k f).phys = s.phys := rfl
@[simp] theorem State.updGrid_off (s : State) (k : Nat) (f : Grid → Grid) : (s.updGrid k f).off = s.off := rfl
@[simp] theorem State.updGrid_l2 (s : State) (k : Nat) (f : Grid → Grid) : (s.updGrid k f).l2 = s.l2 := rfl
@[simp] theorem State.updGrid_extUse (s : State) (k : Nat) (f : Grid → Grid) : (s.updGrid k f).extUse = s.extUse := rfl
@[simp] theorem State.updGrid_made (s : State) (k : Nat) (f : Grid → Grid) : (s.updGrid k f).made = s.made := rfl
@[simp] theorem State.updGrid_roce (s : State) (k : Nat) (f : Grid → Grid) : (s.updGrid k f).roce = s.roce := rfl

/-! `updGroup` changes `groups` alone. -/

@[simp] theorem State.updGroup_now (s : State) (k : Nat) (f : Group → Group) : (s.updGroup k f).now = s.now := rfl
@[simp] theorem State.updGroup_agenda (s : State) (k : Nat) (f : Group → Group) : (s.updGroup k f).agenda = s.agenda := rfl
@[simp] theorem State.updGroup_cur (s : State) (k : Nat) (f : Group → Group) : (s.updGroup k f).cur = s.cur := rfl
@[simp] theorem State.updGroup_nid (s : State) (k : Nat) (f : Group → Group) : (s.updGroup k f).nid = s.nid := rfl
@[simp] theorem State.updGroup_fc (s : State) (k : Nat) (f : Group → Group) : (s.updGroup k f).fc = s.fc := rfl
@[simp] theorem State.updGroup_v (s : State) (k : Nat) (f : Group → Group) : (s.updGroup k f).v = s.v := rfl
@[simp] theorem State.updGroup_sr (s : State) (k : Nat) (f : Group → Group) : (s.updGroup k f).sr = s.sr := rfl
@[simp] theorem State.updGroup_pr (s : State) (k : Nat) (f : Group → Group) : (s.updGroup k f).pr = s.pr := rfl
@[simp] theorem State.updGroup_vbusy (s : State) (k : Nat) (f : Group → Group) : (s.updGroup k f).vbusy = s.vbusy := rfl
@[simp] theorem State.updGroup_sbusy (s : State) (k : Nat) (f : Group → Group) : (s.updGroup k f).sbusy = s.sbusy := rfl
@[simp] theorem State.updGroup_vown (s : State) (k : Nat) (f : Group → Group) : (s.updGroup k f).vown = s.vown := rfl
@[simp] theorem State.updGroup_vread (s : State) (k : Nat) (f : Group → Group) : (s.updGroup k f).vread = s.vread := rfl
@[simp] theorem State.updGroup_vbad (s : State) (k : Nat) (f : Group → Group) : (s.updGroup k f).vbad = s.vbad := rfl
@[simp] theorem State.updGroup_sbad (s : State) (k : Nat) (f : Group → Group) : (s.updGroup k f).sbad = s.sbad := rfl
@[simp] theorem State.updGroup_armed (s : State) (k : Nat) (f : Group → Group) : (s.updGroup k f).armed = s.armed := rfl
@[simp] theorem State.updGroup_threads (s : State) (k : Nat) (f : Group → Group) : (s.updGroup k f).threads = s.threads := rfl
@[simp] theorem State.updGroup_warps (s : State) (k : Nat) (f : Group → Group) : (s.updGroup k f).warps = s.warps := rfl
@[simp] theorem State.updGroup_teams (s : State) (k : Nat) (f : Group → Group) : (s.updGroup k f).teams = s.teams := rfl
@[simp] theorem State.updGroup_grids (s : State) (k : Nat) (f : Group → Group) : (s.updGroup k f).grids = s.grids := rfl
@[simp] theorem State.updGroup_codes (s : State) (k : Nat) (f : Group → Group) : (s.updGroup k f).codes = s.codes := rfl
@[simp] theorem State.updGroup_rdvs (s : State) (k : Nat) (f : Group → Group) : (s.updGroup k f).rdvs = s.rdvs := rfl
@[simp] theorem State.updGroup_bars (s : State) (k : Nat) (f : Group → Group) : (s.updGroup k f).bars = s.bars := rfl
@[simp] theorem State.updGroup_cores (s : State) (k : Nat) (f : Group → Group) : (s.updGroup k f).cores = s.cores := rfl
@[simp] theorem State.updGroup_clusters (s : State) (k : Nat) (f : Group → Group) : (s.updGroup k f).clusters = s.clusters := rfl
@[simp] theorem State.updGroup_ops (s : State) (k : Nat) (f : Group → Group) : (s.updGroup k f).ops = s.ops := rfl
@[simp] theorem State.updGroup_pend (s : State) (k : Nat) (f : Group → Group) : (s.updGroup k f).pend = s.pend := rfl
@[simp] theorem State.updGroup_eng (s : State) (k : Nat) (f : Group → Group) : (s.updGroup k f).eng = s.eng := rfl
@[simp] theorem State.updGroup_mem (s : State) (k : Nat) (f : Group → Group) : (s.updGroup k f).mem = s.mem := rfl
@[simp] theorem State.updGroup_bad (s : State) (k : Nat) (f : Group → Group) : (s.updGroup k f).bad = s.bad := rfl
@[simp] theorem State.updGroup_scr (s : State) (k : Nat) (f : Group → Group) : (s.updGroup k f).scr = s.scr := rfl
@[simp] theorem State.updGroup_l1 (s : State) (k : Nat) (f : Group → Group) : (s.updGroup k f).l1 = s.l1 := rfl
@[simp] theorem State.updGroup_ctxs (s : State) (k : Nat) (f : Group → Group) : (s.updGroup k f).ctxs = s.ctxs := rfl
@[simp] theorem State.updGroup_rings (s : State) (k : Nat) (f : Group → Group) : (s.updGroup k f).rings = s.rings := rfl
@[simp] theorem State.updGroup_fes (s : State) (k : Nat) (f : Group → Group) : (s.updGroup k f).fes = s.fes := rfl
@[simp] theorem State.updGroup_csr (s : State) (k : Nat) (f : Group → Group) : (s.updGroup k f).csr = s.csr := rfl
@[simp] theorem State.updGroup_phys (s : State) (k : Nat) (f : Group → Group) : (s.updGroup k f).phys = s.phys := rfl
@[simp] theorem State.updGroup_off (s : State) (k : Nat) (f : Group → Group) : (s.updGroup k f).off = s.off := rfl
@[simp] theorem State.updGroup_l2 (s : State) (k : Nat) (f : Group → Group) : (s.updGroup k f).l2 = s.l2 := rfl
@[simp] theorem State.updGroup_extUse (s : State) (k : Nat) (f : Group → Group) : (s.updGroup k f).extUse = s.extUse := rfl
@[simp] theorem State.updGroup_made (s : State) (k : Nat) (f : Group → Group) : (s.updGroup k f).made = s.made := rfl
@[simp] theorem State.updGroup_roce (s : State) (k : Nat) (f : Group → Group) : (s.updGroup k f).roce = s.roce := rfl

/-! `updCtx` changes `ctxs` alone. -/

@[simp] theorem State.updCtx_now (s : State) (k : Nat) (f : Ctx → Ctx) : (s.updCtx k f).now = s.now := rfl
@[simp] theorem State.updCtx_agenda (s : State) (k : Nat) (f : Ctx → Ctx) : (s.updCtx k f).agenda = s.agenda := rfl
@[simp] theorem State.updCtx_cur (s : State) (k : Nat) (f : Ctx → Ctx) : (s.updCtx k f).cur = s.cur := rfl
@[simp] theorem State.updCtx_nid (s : State) (k : Nat) (f : Ctx → Ctx) : (s.updCtx k f).nid = s.nid := rfl
@[simp] theorem State.updCtx_fc (s : State) (k : Nat) (f : Ctx → Ctx) : (s.updCtx k f).fc = s.fc := rfl
@[simp] theorem State.updCtx_v (s : State) (k : Nat) (f : Ctx → Ctx) : (s.updCtx k f).v = s.v := rfl
@[simp] theorem State.updCtx_sr (s : State) (k : Nat) (f : Ctx → Ctx) : (s.updCtx k f).sr = s.sr := rfl
@[simp] theorem State.updCtx_pr (s : State) (k : Nat) (f : Ctx → Ctx) : (s.updCtx k f).pr = s.pr := rfl
@[simp] theorem State.updCtx_vbusy (s : State) (k : Nat) (f : Ctx → Ctx) : (s.updCtx k f).vbusy = s.vbusy := rfl
@[simp] theorem State.updCtx_sbusy (s : State) (k : Nat) (f : Ctx → Ctx) : (s.updCtx k f).sbusy = s.sbusy := rfl
@[simp] theorem State.updCtx_vown (s : State) (k : Nat) (f : Ctx → Ctx) : (s.updCtx k f).vown = s.vown := rfl
@[simp] theorem State.updCtx_vread (s : State) (k : Nat) (f : Ctx → Ctx) : (s.updCtx k f).vread = s.vread := rfl
@[simp] theorem State.updCtx_vbad (s : State) (k : Nat) (f : Ctx → Ctx) : (s.updCtx k f).vbad = s.vbad := rfl
@[simp] theorem State.updCtx_sbad (s : State) (k : Nat) (f : Ctx → Ctx) : (s.updCtx k f).sbad = s.sbad := rfl
@[simp] theorem State.updCtx_armed (s : State) (k : Nat) (f : Ctx → Ctx) : (s.updCtx k f).armed = s.armed := rfl
@[simp] theorem State.updCtx_threads (s : State) (k : Nat) (f : Ctx → Ctx) : (s.updCtx k f).threads = s.threads := rfl
@[simp] theorem State.updCtx_warps (s : State) (k : Nat) (f : Ctx → Ctx) : (s.updCtx k f).warps = s.warps := rfl
@[simp] theorem State.updCtx_teams (s : State) (k : Nat) (f : Ctx → Ctx) : (s.updCtx k f).teams = s.teams := rfl
@[simp] theorem State.updCtx_grids (s : State) (k : Nat) (f : Ctx → Ctx) : (s.updCtx k f).grids = s.grids := rfl
@[simp] theorem State.updCtx_codes (s : State) (k : Nat) (f : Ctx → Ctx) : (s.updCtx k f).codes = s.codes := rfl
@[simp] theorem State.updCtx_groups (s : State) (k : Nat) (f : Ctx → Ctx) : (s.updCtx k f).groups = s.groups := rfl
@[simp] theorem State.updCtx_rdvs (s : State) (k : Nat) (f : Ctx → Ctx) : (s.updCtx k f).rdvs = s.rdvs := rfl
@[simp] theorem State.updCtx_bars (s : State) (k : Nat) (f : Ctx → Ctx) : (s.updCtx k f).bars = s.bars := rfl
@[simp] theorem State.updCtx_cores (s : State) (k : Nat) (f : Ctx → Ctx) : (s.updCtx k f).cores = s.cores := rfl
@[simp] theorem State.updCtx_clusters (s : State) (k : Nat) (f : Ctx → Ctx) : (s.updCtx k f).clusters = s.clusters := rfl
@[simp] theorem State.updCtx_ops (s : State) (k : Nat) (f : Ctx → Ctx) : (s.updCtx k f).ops = s.ops := rfl
@[simp] theorem State.updCtx_pend (s : State) (k : Nat) (f : Ctx → Ctx) : (s.updCtx k f).pend = s.pend := rfl
@[simp] theorem State.updCtx_eng (s : State) (k : Nat) (f : Ctx → Ctx) : (s.updCtx k f).eng = s.eng := rfl
@[simp] theorem State.updCtx_mem (s : State) (k : Nat) (f : Ctx → Ctx) : (s.updCtx k f).mem = s.mem := rfl
@[simp] theorem State.updCtx_bad (s : State) (k : Nat) (f : Ctx → Ctx) : (s.updCtx k f).bad = s.bad := rfl
@[simp] theorem State.updCtx_scr (s : State) (k : Nat) (f : Ctx → Ctx) : (s.updCtx k f).scr = s.scr := rfl
@[simp] theorem State.updCtx_l1 (s : State) (k : Nat) (f : Ctx → Ctx) : (s.updCtx k f).l1 = s.l1 := rfl
@[simp] theorem State.updCtx_rings (s : State) (k : Nat) (f : Ctx → Ctx) : (s.updCtx k f).rings = s.rings := rfl
@[simp] theorem State.updCtx_fes (s : State) (k : Nat) (f : Ctx → Ctx) : (s.updCtx k f).fes = s.fes := rfl
@[simp] theorem State.updCtx_csr (s : State) (k : Nat) (f : Ctx → Ctx) : (s.updCtx k f).csr = s.csr := rfl
@[simp] theorem State.updCtx_phys (s : State) (k : Nat) (f : Ctx → Ctx) : (s.updCtx k f).phys = s.phys := rfl
@[simp] theorem State.updCtx_off (s : State) (k : Nat) (f : Ctx → Ctx) : (s.updCtx k f).off = s.off := rfl
@[simp] theorem State.updCtx_l2 (s : State) (k : Nat) (f : Ctx → Ctx) : (s.updCtx k f).l2 = s.l2 := rfl
@[simp] theorem State.updCtx_extUse (s : State) (k : Nat) (f : Ctx → Ctx) : (s.updCtx k f).extUse = s.extUse := rfl
@[simp] theorem State.updCtx_made (s : State) (k : Nat) (f : Ctx → Ctx) : (s.updCtx k f).made = s.made := rfl
@[simp] theorem State.updCtx_roce (s : State) (k : Nat) (f : Ctx → Ctx) : (s.updCtx k f).roce = s.roce := rfl

/-! `updCore` changes `cores` alone. -/

@[simp] theorem State.updCore_now (s : State) (k : Nat) (f : CoreSt → CoreSt) : (s.updCore k f).now = s.now := rfl
@[simp] theorem State.updCore_agenda (s : State) (k : Nat) (f : CoreSt → CoreSt) : (s.updCore k f).agenda = s.agenda := rfl
@[simp] theorem State.updCore_cur (s : State) (k : Nat) (f : CoreSt → CoreSt) : (s.updCore k f).cur = s.cur := rfl
@[simp] theorem State.updCore_nid (s : State) (k : Nat) (f : CoreSt → CoreSt) : (s.updCore k f).nid = s.nid := rfl
@[simp] theorem State.updCore_fc (s : State) (k : Nat) (f : CoreSt → CoreSt) : (s.updCore k f).fc = s.fc := rfl
@[simp] theorem State.updCore_v (s : State) (k : Nat) (f : CoreSt → CoreSt) : (s.updCore k f).v = s.v := rfl
@[simp] theorem State.updCore_sr (s : State) (k : Nat) (f : CoreSt → CoreSt) : (s.updCore k f).sr = s.sr := rfl
@[simp] theorem State.updCore_pr (s : State) (k : Nat) (f : CoreSt → CoreSt) : (s.updCore k f).pr = s.pr := rfl
@[simp] theorem State.updCore_vbusy (s : State) (k : Nat) (f : CoreSt → CoreSt) : (s.updCore k f).vbusy = s.vbusy := rfl
@[simp] theorem State.updCore_sbusy (s : State) (k : Nat) (f : CoreSt → CoreSt) : (s.updCore k f).sbusy = s.sbusy := rfl
@[simp] theorem State.updCore_vown (s : State) (k : Nat) (f : CoreSt → CoreSt) : (s.updCore k f).vown = s.vown := rfl
@[simp] theorem State.updCore_vread (s : State) (k : Nat) (f : CoreSt → CoreSt) : (s.updCore k f).vread = s.vread := rfl
@[simp] theorem State.updCore_vbad (s : State) (k : Nat) (f : CoreSt → CoreSt) : (s.updCore k f).vbad = s.vbad := rfl
@[simp] theorem State.updCore_sbad (s : State) (k : Nat) (f : CoreSt → CoreSt) : (s.updCore k f).sbad = s.sbad := rfl
@[simp] theorem State.updCore_armed (s : State) (k : Nat) (f : CoreSt → CoreSt) : (s.updCore k f).armed = s.armed := rfl
@[simp] theorem State.updCore_threads (s : State) (k : Nat) (f : CoreSt → CoreSt) : (s.updCore k f).threads = s.threads := rfl
@[simp] theorem State.updCore_warps (s : State) (k : Nat) (f : CoreSt → CoreSt) : (s.updCore k f).warps = s.warps := rfl
@[simp] theorem State.updCore_teams (s : State) (k : Nat) (f : CoreSt → CoreSt) : (s.updCore k f).teams = s.teams := rfl
@[simp] theorem State.updCore_grids (s : State) (k : Nat) (f : CoreSt → CoreSt) : (s.updCore k f).grids = s.grids := rfl
@[simp] theorem State.updCore_codes (s : State) (k : Nat) (f : CoreSt → CoreSt) : (s.updCore k f).codes = s.codes := rfl
@[simp] theorem State.updCore_groups (s : State) (k : Nat) (f : CoreSt → CoreSt) : (s.updCore k f).groups = s.groups := rfl
@[simp] theorem State.updCore_rdvs (s : State) (k : Nat) (f : CoreSt → CoreSt) : (s.updCore k f).rdvs = s.rdvs := rfl
@[simp] theorem State.updCore_bars (s : State) (k : Nat) (f : CoreSt → CoreSt) : (s.updCore k f).bars = s.bars := rfl
@[simp] theorem State.updCore_clusters (s : State) (k : Nat) (f : CoreSt → CoreSt) : (s.updCore k f).clusters = s.clusters := rfl
@[simp] theorem State.updCore_ops (s : State) (k : Nat) (f : CoreSt → CoreSt) : (s.updCore k f).ops = s.ops := rfl
@[simp] theorem State.updCore_pend (s : State) (k : Nat) (f : CoreSt → CoreSt) : (s.updCore k f).pend = s.pend := rfl
@[simp] theorem State.updCore_eng (s : State) (k : Nat) (f : CoreSt → CoreSt) : (s.updCore k f).eng = s.eng := rfl
@[simp] theorem State.updCore_mem (s : State) (k : Nat) (f : CoreSt → CoreSt) : (s.updCore k f).mem = s.mem := rfl
@[simp] theorem State.updCore_bad (s : State) (k : Nat) (f : CoreSt → CoreSt) : (s.updCore k f).bad = s.bad := rfl
@[simp] theorem State.updCore_scr (s : State) (k : Nat) (f : CoreSt → CoreSt) : (s.updCore k f).scr = s.scr := rfl
@[simp] theorem State.updCore_l1 (s : State) (k : Nat) (f : CoreSt → CoreSt) : (s.updCore k f).l1 = s.l1 := rfl
@[simp] theorem State.updCore_ctxs (s : State) (k : Nat) (f : CoreSt → CoreSt) : (s.updCore k f).ctxs = s.ctxs := rfl
@[simp] theorem State.updCore_rings (s : State) (k : Nat) (f : CoreSt → CoreSt) : (s.updCore k f).rings = s.rings := rfl
@[simp] theorem State.updCore_fes (s : State) (k : Nat) (f : CoreSt → CoreSt) : (s.updCore k f).fes = s.fes := rfl
@[simp] theorem State.updCore_csr (s : State) (k : Nat) (f : CoreSt → CoreSt) : (s.updCore k f).csr = s.csr := rfl
@[simp] theorem State.updCore_phys (s : State) (k : Nat) (f : CoreSt → CoreSt) : (s.updCore k f).phys = s.phys := rfl
@[simp] theorem State.updCore_off (s : State) (k : Nat) (f : CoreSt → CoreSt) : (s.updCore k f).off = s.off := rfl
@[simp] theorem State.updCore_l2 (s : State) (k : Nat) (f : CoreSt → CoreSt) : (s.updCore k f).l2 = s.l2 := rfl
@[simp] theorem State.updCore_extUse (s : State) (k : Nat) (f : CoreSt → CoreSt) : (s.updCore k f).extUse = s.extUse := rfl
@[simp] theorem State.updCore_made (s : State) (k : Nat) (f : CoreSt → CoreSt) : (s.updCore k f).made = s.made := rfl
@[simp] theorem State.updCore_roce (s : State) (k : Nat) (f : CoreSt → CoreSt) : (s.updCore k f).roce = s.roce := rfl

/-! `setByte` changes `mem` alone. -/

@[simp] theorem State.setByte_now (s : State) (k : Nat) (b : Byte) : (s.setByte k b).now = s.now := rfl
@[simp] theorem State.setByte_agenda (s : State) (k : Nat) (b : Byte) : (s.setByte k b).agenda = s.agenda := rfl
@[simp] theorem State.setByte_cur (s : State) (k : Nat) (b : Byte) : (s.setByte k b).cur = s.cur := rfl
@[simp] theorem State.setByte_nid (s : State) (k : Nat) (b : Byte) : (s.setByte k b).nid = s.nid := rfl
@[simp] theorem State.setByte_fc (s : State) (k : Nat) (b : Byte) : (s.setByte k b).fc = s.fc := rfl
@[simp] theorem State.setByte_v (s : State) (k : Nat) (b : Byte) : (s.setByte k b).v = s.v := rfl
@[simp] theorem State.setByte_sr (s : State) (k : Nat) (b : Byte) : (s.setByte k b).sr = s.sr := rfl
@[simp] theorem State.setByte_pr (s : State) (k : Nat) (b : Byte) : (s.setByte k b).pr = s.pr := rfl
@[simp] theorem State.setByte_vbusy (s : State) (k : Nat) (b : Byte) : (s.setByte k b).vbusy = s.vbusy := rfl
@[simp] theorem State.setByte_sbusy (s : State) (k : Nat) (b : Byte) : (s.setByte k b).sbusy = s.sbusy := rfl
@[simp] theorem State.setByte_vown (s : State) (k : Nat) (b : Byte) : (s.setByte k b).vown = s.vown := rfl
@[simp] theorem State.setByte_vread (s : State) (k : Nat) (b : Byte) : (s.setByte k b).vread = s.vread := rfl
@[simp] theorem State.setByte_vbad (s : State) (k : Nat) (b : Byte) : (s.setByte k b).vbad = s.vbad := rfl
@[simp] theorem State.setByte_sbad (s : State) (k : Nat) (b : Byte) : (s.setByte k b).sbad = s.sbad := rfl
@[simp] theorem State.setByte_armed (s : State) (k : Nat) (b : Byte) : (s.setByte k b).armed = s.armed := rfl
@[simp] theorem State.setByte_threads (s : State) (k : Nat) (b : Byte) : (s.setByte k b).threads = s.threads := rfl
@[simp] theorem State.setByte_warps (s : State) (k : Nat) (b : Byte) : (s.setByte k b).warps = s.warps := rfl
@[simp] theorem State.setByte_teams (s : State) (k : Nat) (b : Byte) : (s.setByte k b).teams = s.teams := rfl
@[simp] theorem State.setByte_grids (s : State) (k : Nat) (b : Byte) : (s.setByte k b).grids = s.grids := rfl
@[simp] theorem State.setByte_codes (s : State) (k : Nat) (b : Byte) : (s.setByte k b).codes = s.codes := rfl
@[simp] theorem State.setByte_groups (s : State) (k : Nat) (b : Byte) : (s.setByte k b).groups = s.groups := rfl
@[simp] theorem State.setByte_rdvs (s : State) (k : Nat) (b : Byte) : (s.setByte k b).rdvs = s.rdvs := rfl
@[simp] theorem State.setByte_bars (s : State) (k : Nat) (b : Byte) : (s.setByte k b).bars = s.bars := rfl
@[simp] theorem State.setByte_cores (s : State) (k : Nat) (b : Byte) : (s.setByte k b).cores = s.cores := rfl
@[simp] theorem State.setByte_clusters (s : State) (k : Nat) (b : Byte) : (s.setByte k b).clusters = s.clusters := rfl
@[simp] theorem State.setByte_ops (s : State) (k : Nat) (b : Byte) : (s.setByte k b).ops = s.ops := rfl
@[simp] theorem State.setByte_pend (s : State) (k : Nat) (b : Byte) : (s.setByte k b).pend = s.pend := rfl
@[simp] theorem State.setByte_eng (s : State) (k : Nat) (b : Byte) : (s.setByte k b).eng = s.eng := rfl
@[simp] theorem State.setByte_bad (s : State) (k : Nat) (b : Byte) : (s.setByte k b).bad = s.bad := rfl
@[simp] theorem State.setByte_scr (s : State) (k : Nat) (b : Byte) : (s.setByte k b).scr = s.scr := rfl
@[simp] theorem State.setByte_l1 (s : State) (k : Nat) (b : Byte) : (s.setByte k b).l1 = s.l1 := rfl
@[simp] theorem State.setByte_ctxs (s : State) (k : Nat) (b : Byte) : (s.setByte k b).ctxs = s.ctxs := rfl
@[simp] theorem State.setByte_rings (s : State) (k : Nat) (b : Byte) : (s.setByte k b).rings = s.rings := rfl
@[simp] theorem State.setByte_fes (s : State) (k : Nat) (b : Byte) : (s.setByte k b).fes = s.fes := rfl
@[simp] theorem State.setByte_csr (s : State) (k : Nat) (b : Byte) : (s.setByte k b).csr = s.csr := rfl
@[simp] theorem State.setByte_phys (s : State) (k : Nat) (b : Byte) : (s.setByte k b).phys = s.phys := rfl
@[simp] theorem State.setByte_off (s : State) (k : Nat) (b : Byte) : (s.setByte k b).off = s.off := rfl
@[simp] theorem State.setByte_l2 (s : State) (k : Nat) (b : Byte) : (s.setByte k b).l2 = s.l2 := rfl
@[simp] theorem State.setByte_extUse (s : State) (k : Nat) (b : Byte) : (s.setByte k b).extUse = s.extUse := rfl
@[simp] theorem State.setByte_made (s : State) (k : Nat) (b : Byte) : (s.setByte k b).made = s.made := rfl
@[simp] theorem State.setByte_roce (s : State) (k : Nat) (b : Byte) : (s.setByte k b).roce = s.roce := rfl

/-! `csrSet` changes `csr` alone. -/

@[simp] theorem State.csrSet_now (s : State) (k : Nat) (x : W64) : (s.csrSet k x).now = s.now := rfl
@[simp] theorem State.csrSet_agenda (s : State) (k : Nat) (x : W64) : (s.csrSet k x).agenda = s.agenda := rfl
@[simp] theorem State.csrSet_cur (s : State) (k : Nat) (x : W64) : (s.csrSet k x).cur = s.cur := rfl
@[simp] theorem State.csrSet_nid (s : State) (k : Nat) (x : W64) : (s.csrSet k x).nid = s.nid := rfl
@[simp] theorem State.csrSet_fc (s : State) (k : Nat) (x : W64) : (s.csrSet k x).fc = s.fc := rfl
@[simp] theorem State.csrSet_v (s : State) (k : Nat) (x : W64) : (s.csrSet k x).v = s.v := rfl
@[simp] theorem State.csrSet_sr (s : State) (k : Nat) (x : W64) : (s.csrSet k x).sr = s.sr := rfl
@[simp] theorem State.csrSet_pr (s : State) (k : Nat) (x : W64) : (s.csrSet k x).pr = s.pr := rfl
@[simp] theorem State.csrSet_vbusy (s : State) (k : Nat) (x : W64) : (s.csrSet k x).vbusy = s.vbusy := rfl
@[simp] theorem State.csrSet_sbusy (s : State) (k : Nat) (x : W64) : (s.csrSet k x).sbusy = s.sbusy := rfl
@[simp] theorem State.csrSet_vown (s : State) (k : Nat) (x : W64) : (s.csrSet k x).vown = s.vown := rfl
@[simp] theorem State.csrSet_vread (s : State) (k : Nat) (x : W64) : (s.csrSet k x).vread = s.vread := rfl
@[simp] theorem State.csrSet_vbad (s : State) (k : Nat) (x : W64) : (s.csrSet k x).vbad = s.vbad := rfl
@[simp] theorem State.csrSet_sbad (s : State) (k : Nat) (x : W64) : (s.csrSet k x).sbad = s.sbad := rfl
@[simp] theorem State.csrSet_armed (s : State) (k : Nat) (x : W64) : (s.csrSet k x).armed = s.armed := rfl
@[simp] theorem State.csrSet_threads (s : State) (k : Nat) (x : W64) : (s.csrSet k x).threads = s.threads := rfl
@[simp] theorem State.csrSet_warps (s : State) (k : Nat) (x : W64) : (s.csrSet k x).warps = s.warps := rfl
@[simp] theorem State.csrSet_teams (s : State) (k : Nat) (x : W64) : (s.csrSet k x).teams = s.teams := rfl
@[simp] theorem State.csrSet_grids (s : State) (k : Nat) (x : W64) : (s.csrSet k x).grids = s.grids := rfl
@[simp] theorem State.csrSet_codes (s : State) (k : Nat) (x : W64) : (s.csrSet k x).codes = s.codes := rfl
@[simp] theorem State.csrSet_groups (s : State) (k : Nat) (x : W64) : (s.csrSet k x).groups = s.groups := rfl
@[simp] theorem State.csrSet_rdvs (s : State) (k : Nat) (x : W64) : (s.csrSet k x).rdvs = s.rdvs := rfl
@[simp] theorem State.csrSet_bars (s : State) (k : Nat) (x : W64) : (s.csrSet k x).bars = s.bars := rfl
@[simp] theorem State.csrSet_cores (s : State) (k : Nat) (x : W64) : (s.csrSet k x).cores = s.cores := rfl
@[simp] theorem State.csrSet_clusters (s : State) (k : Nat) (x : W64) : (s.csrSet k x).clusters = s.clusters := rfl
@[simp] theorem State.csrSet_ops (s : State) (k : Nat) (x : W64) : (s.csrSet k x).ops = s.ops := rfl
@[simp] theorem State.csrSet_pend (s : State) (k : Nat) (x : W64) : (s.csrSet k x).pend = s.pend := rfl
@[simp] theorem State.csrSet_eng (s : State) (k : Nat) (x : W64) : (s.csrSet k x).eng = s.eng := rfl
@[simp] theorem State.csrSet_mem (s : State) (k : Nat) (x : W64) : (s.csrSet k x).mem = s.mem := rfl
@[simp] theorem State.csrSet_bad (s : State) (k : Nat) (x : W64) : (s.csrSet k x).bad = s.bad := rfl
@[simp] theorem State.csrSet_scr (s : State) (k : Nat) (x : W64) : (s.csrSet k x).scr = s.scr := rfl
@[simp] theorem State.csrSet_l1 (s : State) (k : Nat) (x : W64) : (s.csrSet k x).l1 = s.l1 := rfl
@[simp] theorem State.csrSet_ctxs (s : State) (k : Nat) (x : W64) : (s.csrSet k x).ctxs = s.ctxs := rfl
@[simp] theorem State.csrSet_rings (s : State) (k : Nat) (x : W64) : (s.csrSet k x).rings = s.rings := rfl
@[simp] theorem State.csrSet_fes (s : State) (k : Nat) (x : W64) : (s.csrSet k x).fes = s.fes := rfl
@[simp] theorem State.csrSet_phys (s : State) (k : Nat) (x : W64) : (s.csrSet k x).phys = s.phys := rfl
@[simp] theorem State.csrSet_off (s : State) (k : Nat) (x : W64) : (s.csrSet k x).off = s.off := rfl
@[simp] theorem State.csrSet_l2 (s : State) (k : Nat) (x : W64) : (s.csrSet k x).l2 = s.l2 := rfl
@[simp] theorem State.csrSet_extUse (s : State) (k : Nat) (x : W64) : (s.csrSet k x).extUse = s.extUse := rfl
@[simp] theorem State.csrSet_made (s : State) (k : Nat) (x : W64) : (s.csrSet k x).made = s.made := rfl
@[simp] theorem State.csrSet_roce (s : State) (k : Nat) (x : W64) : (s.csrSet k x).roce = s.roce := rfl

/-! `free` and `newId` change only their counters. -/

@[simp] theorem State.free_snd (s : State) : s.free.2 = { s with fc := s.fc + 1 } := rfl
@[simp] theorem State.newId_snd (s : State) : s.newId.2 = { s with nid := s.nid + 1 } := rfl
@[simp] theorem State.newId_fst (s : State) : s.newId.1 = s.nid := rfl

/-! What each named update makes of its own map. -/

theorem State.updThread_look (s : State) (k : Nat) (f : Thread → Thread) (j : Nat) :
    look (s.updThread k f).threads j = if j = k then (look s.threads j).map f else look s.threads j := by
  simp only [State.updThread, look_upd]; split <;> simp_all
theorem State.updWarp_look (s : State) (k : Nat) (f : Warp → Warp) (j : Nat) :
    look (s.updWarp k f).warps j = if j = k then (look s.warps j).map f else look s.warps j := by
  simp only [State.updWarp, look_upd]; split <;> simp_all
theorem State.updTeam_look (s : State) (k : Nat) (f : Team → Team) (j : Nat) :
    look (s.updTeam k f).teams j = if j = k then (look s.teams j).map f else look s.teams j := by
  simp only [State.updTeam, look_upd]; split <;> simp_all
theorem State.updGrid_look (s : State) (k : Nat) (f : Grid → Grid) (j : Nat) :
    look (s.updGrid k f).grids j = if j = k then (look s.grids j).map f else look s.grids j := by
  simp only [State.updGrid, look_upd]; split <;> simp_all
theorem State.updGroup_look (s : State) (k : Nat) (f : Group → Group) (j : Nat) :
    look (s.updGroup k f).groups j = if j = k then (look s.groups j).map f else look s.groups j := by
  simp only [State.updGroup, look_upd]; split <;> simp_all
theorem State.updCtx_look (s : State) (k : Nat) (f : Ctx → Ctx) (j : Nat) :
    look (s.updCtx k f).ctxs j = if j = k then (look s.ctxs j).map f else look s.ctxs j := by
  simp only [State.updCtx, look_upd]; split <;> simp_all
theorem State.updCore_coreOf (s : State) (k : Nat) (f : CoreSt → CoreSt) (j : Nat) :
    (s.updCore k f).coreOf j = if j = k then f (s.coreOf k) else s.coreOf j := by
  simp only [State.coreOf, State.updCore, look_ins]; split <;> simp_all

/-- A device register written reads back. -/
theorem State.csrSet_same (s : State) (k : Nat) (x : W64) : (s.csrSet k x).csrGet k = x := by
  unfold State.csrSet State.csrGet
  by_cases h : x = csrReset k
  · simp [h]
  · simp [h]

/-- A write of one device register leaves the others. -/
theorem State.csrSet_other (s : State) {k j : Nat} (x : W64) (h : j ≠ k) : (s.csrSet k x).csrGet j = s.csrGet j := by
  unfold State.csrSet State.csrGet
  by_cases hx : x = csrReset k
  · simp [hx, look_del_other _ h]
  · simp [hx, look_ins_other _ _ h]

end Sys2Proof.Machine
end

