-- ==== Sys2Proof/Tests/Slice0.lean ====
section
/-!
SUPPORT. The model's own tests: instruction words written out from the spec's encodings, terms that are not well formed, single steps against
the spec's worked examples, and for each statement a state that meets its hypotheses.
-/
namespace Sys2Proof.Tests
open Sys2Proof Sys2Proof.Machine
set_option Elab.async false

/-! Decoding. The words are put together from the field places of R37 and R40 and the codes of R42 to R46. -/

/-- Words written out from the fields of R37, R40 and R42 to R46: scalar forms. -/
def scalarWords : List (W64 × Instr) := [
  (0x0000000000000000, .nop .always),
  (0x0100203040010080, .sadd ⟨.always, 2, 3, 4, 0, .s32, 128⟩),
  (0x0200203040040000, .ssub ⟨.always, 2, 3, 4, 0, .n64, 0⟩),
  (0x0300203040030000, .smul ⟨.always, 2, 3, 4, 0, .s64, 0⟩),
  (0x0400203040020000, .smulh ⟨.always, 2, 3, 4, 0, .n32, 0⟩),
  (0x0500203040010100, .sdiv ⟨.always, 2, 3, 4, 0, .s32, 256⟩),
  (0x0600203040010000, .smin ⟨.always, 2, 3, 4, 0, .s32, 0⟩),
  (0x0700203040020000, .smax ⟨.always, 2, 3, 4, 0, .n32, 0⟩),
  (0x0800203040000000, .sand ⟨.always, 2, 3, 4, 0, .b32, 0⟩),
  (0x09002030400D0000, .sor ⟨.always, 2, 3, 4, 0, .b64, 0⟩),
  (0x0A00203040000000, .sxor ⟨.always, 2, 3, 4, 0, .b32, 0⟩),
  (0x0B002030400D0000, .sshl ⟨.always, 2, 3, 4, 0, .b64, 0⟩),
  (0x0C00203040010000, .sshr ⟨.always, 2, 3, 4, 0, .s32, 0⟩),
  (0x0D00203040010000, .sbfx ⟨.always, 2, 3, 4, 0, .s32, 0⟩),
  (0x0E00203040500000, .sbfi ⟨.always, 2, 3, 4, 5, .b32, 0⟩),
  (0x0F002030000D0000, .sclz ⟨.always, 2, 3, 0, 0, .b64, 0⟩),
  (0x1000203000000000, .spopc ⟨.always, 2, 3, 0, 0, .b32, 0⟩),
  (0x1100203040010200, .sset ⟨.always, 2, 3, 4, 0, .s32, 512⟩),
  (0x12002030405D0000, .ssel ⟨.always, 2, 3, 4, 5, .b64, 0⟩),
  (0x13002030000D0000, .smov ⟨.always, 2, 3, 0, 0, .b64, 0⟩),
  (0x1400200FFFFFFFF3, .smovi ⟨.always, 2, 0, 0xFFFFFFFF, .s64⟩),
  (0x150020312345678D, .smovhi ⟨.always, 2, 3, 0x12345678, .b64⟩),
  (0x1600203FFFFFFF03, .saddi ⟨.always, 2, 3, 0xFFFFFFF0, .s64⟩),
  (0x2500203000000000, .mkjoin ⟨.always, 2, 3, 0, 0, .b32, 0⟩)]

/-- Words written out from the fields of R37, R40 and R42 to R46: lane forms. -/
def laneWords : List (W64 × Instr) := [
  (0x1800204050000100, .vrdlane ⟨.always, 2, 4, 5, 0, .b32, 256⟩),
  (0x19004030506D0000, .vwrlane ⟨.always, 4, 3, 5, 6, .b64, 0⟩),
  (0x1A00201050000100, .ballot ⟨.always, 2, 1, 5, 0, .b32, 256⟩),
  (0x2600005000000000, .join ⟨.always, 0, 5, 0, 0, .b32, 0⟩),
  (0x5400804050000D00, .vshfl ⟨.always, 8, 4, 5, 0, .b32, 208, false, false, false, false⟩),
  (0x5500801050000200, .vmbcnt ⟨.always, 8, 1, 5, 0, .b32, 32, false, false, false, false⟩),
  (0x7A00804050650600, .vcvtmx ⟨.always, 8, 4, 5, 6, .f32, 96, false, false, false, false⟩)]

/-- Words written out from the fields of R37, R40 and R42 to R46: plain forms. -/
def plainWords : List (W64 × Instr) := [
  (0x1B00103000000100, .pfrom ⟨.always, 1, 3, 0, 0, .b32, 256⟩),
  (0x1C00102030000900, .plog ⟨.always, 1, 2, 3, 0, .b32, 2304⟩),
  (0x1D00400000100000, .srd ⟨.always, 4, 0, 0x1, 0⟩),
  (0x1E00009000E00010, .swr ⟨.always, 0, 9, 0xE, 1⟩),
  (0x20000FFFFFFF8000, .bra ⟨.always, 0, 0xFFFFFFF8, 0, 0⟩),
  (0x2100000000010040, .brx ⟨.always, 0, 0x10, 4, 0⟩),
  (0x2200000000008000, .call ⟨.always, 0, 0x8, 0, 0⟩),
  (0x2300000000008051, .callx ⟨.always, 0, 0x8, 5, 1⟩),
  (0x24000000000001E0, .ret ⟨.always, 0, 0x0, 30, 0⟩),
  (0x2700000000000000, .exit ⟨.always, 0, 0x0, 0, 0⟩),
  (0x2800000000000000, .yield ⟨.always, 0, 0, 0, 0, .b32, 0⟩),
  (0x2A00200000700000, .mbrd ⟨.always, 2, 0, 0x7, 0⟩),
  (0x2B00003000100000, .mbwr ⟨.always, 0, 3, 0x1, 0⟩),
  (0x2C00000000000642, .sleep ⟨.always, 0, 0, 0x64, .n32⟩),
  (0x2D00000000000002, .evsig ⟨.always, 0, 0, 0x0, .n32⟩)]

/-- Words written out from the fields of R37, R40 and R42 to R46: vector forms. -/
def vectorWords : List (W64 × Instr) := [
  (0x4000804060010088, .vadd ⟨.always, 8, 4, 6, 0, .s32, 8, true, false, false, false⟩),
  (0x4100804060040000, .vsub ⟨.always, 8, 4, 6, 0, .n64, 0, false, false, false, false⟩),
  (0x4200804060090000, .vmul ⟨.always, 8, 4, 6, 0, .s16x2, 0, false, false, false, false⟩),
  (0x4300804060020000, .vmulh ⟨.always, 8, 4, 6, 0, .n32, 0, false, false, false, false⟩),
  (0x4400804060A10100, .vmad ⟨.always, 8, 4, 6, 10, .s32, 16, false, false, false, false⟩),
  (0x45008040600B0000, .vmin ⟨.always, 8, 4, 6, 0, .s8x4, 0, false, false, false, false⟩),
  (0x4600804060020000, .vmax ⟨.always, 8, 4, 6, 0, .n32, 0, false, false, false, false⟩),
  (0x4700804060010000, .vabsd ⟨.always, 8, 4, 6, 0, .s32, 0, false, false, false, false⟩),
  (0x4800804060000100, .vand ⟨.always, 8, 4, 6, 0, .b32, 16, false, false, false, false⟩),
  (0x49008040600D0000, .vor ⟨.always, 8, 4, 6, 0, .b64, 0, false, false, false, false⟩),
  (0x4A00804060000001, .vxor ⟨.always, 8, 4, 6, 0, .b32, 0, false, false, false, true⟩),
  (0x4B008040600A0000, .vshl ⟨.always, 8, 4, 6, 0, .n16x2, 0, false, false, false, false⟩),
  (0x4C00804060010000, .vshr ⟨.always, 8, 4, 6, 0, .s32, 0, false, false, false, false⟩),
  (0x4D00804060010000, .vbfx ⟨.always, 8, 4, 6, 0, .s32, 0, false, false, false, false⟩),
  (0x4E00804060A00000, .vbfi ⟨.always, 8, 4, 6, 10, .b32, 0, false, false, false, false⟩),
  (0x4F00804000000000, .vclz ⟨.always, 8, 4, 0, 0, .b32, 0, false, false, false, false⟩),
  (0x50008040000D0000, .vpopc ⟨.always, 8, 4, 0, 0, .b64, 0, false, false, false, false⟩),
  (0x5100804060220700, .vaddc ⟨.always, 8, 4, 6, 2, .n32, 112, false, false, false, false⟩),
  (0x5200804060AB0000, .vdot4 ⟨.always, 8, 4, 6, 10, .s8x4, 0, false, false, false, false⟩),
  (0x5300804060A00000, .vperm ⟨.always, 8, 4, 6, 10, .b32, 0, false, false, false, false⟩),
  (0x5600104060010200, .vcmp ⟨.always, 1, 4, 6, 0, .s32, 32, false, false, false, false⟩),
  (0x5700804060200000, .vsel ⟨.always, 8, 4, 6, 2, .b32, 0, false, false, false, false⟩),
  (0x58008040000D0000, .vmov ⟨.always, 8, 4, 0, 0, .b64, 0, false, false, false, false⟩),
  (0x59008003FC000005, .vmovi ⟨.always, 8, 0, 0x3FC00000, .f32⟩),
  (0x5A00804FFFFFFFF1, .vaddi ⟨.always, 8, 4, 0xFFFFFFFF, .s32⟩)]

/-- Words written out from the fields of R37, R40 and R42 to R46: float forms. -/
def floatWords : List (W64 × Instr) := [
  (0x6000804060050040, .vfadd ⟨.always, 8, 4, 6, 0, .f32, 4, false, false, false, false⟩),
  (0x6100804060080000, .vfsub ⟨.always, 8, 4, 6, 0, .f64, 0, false, false, false, false⟩),
  (0x6200804060060080, .vfmul ⟨.always, 8, 4, 6, 0, .f16x2, 8, false, false, false, false⟩),
  (0x6300804060A50000, .vfma ⟨.always, 8, 4, 6, 10, .f32, 0, false, false, false, false⟩),
  (0x6400804060050000, .vfmin ⟨.always, 8, 4, 6, 0, .f32, 0, false, false, false, false⟩),
  (0x6500804060080000, .vfmax ⟨.always, 8, 4, 6, 0, .f64, 0, false, false, false, false⟩),
  (0x6600804060050100, .vfsgn ⟨.always, 8, 4, 6, 0, .f32, 16, false, false, false, false⟩),
  (0x6700104060050700, .vfcmp ⟨.always, 1, 4, 6, 0, .f32, 112, false, false, false, false⟩),
  (0x6800804000050000, .vfclass ⟨.always, 8, 4, 0, 0, .f32, 0, false, false, false, false⟩),
  (0x6900804000050010, .vfrnd ⟨.always, 8, 4, 0, 0, .f32, 1, false, false, false, false⟩),
  (0x6A00804060050000, .vfldx ⟨.always, 8, 4, 6, 0, .f32, 0, false, false, false, false⟩),
  (0x6B00804060050000, .vfdiv ⟨.always, 8, 4, 6, 0, .f32, 0, false, false, false, false⟩),
  (0x6C00804000080000, .vfsqrt ⟨.always, 8, 4, 0, 0, .f64, 0, false, false, false, false⟩),
  (0x6D00804000050000, .vfrcp ⟨.always, 8, 4, 0, 0, .f32, 0, false, false, false, false⟩),
  (0x6E00804000050000, .vfrsq ⟨.always, 8, 4, 0, 0, .f32, 0, false, false, false, false⟩),
  (0x6F00804000050000, .vfexp2 ⟨.always, 8, 4, 0, 0, .f32, 0, false, false, false, false⟩),
  (0x7000804000050000, .vflog2 ⟨.always, 8, 4, 0, 0, .f32, 0, false, false, false, false⟩),
  (0x7100804000070000, .vftanh ⟨.always, 8, 4, 0, 0, .bf16x2, 0, false, false, false, false⟩),
  (0x7200804000060000, .vfsigm ⟨.always, 8, 4, 0, 0, .f16x2, 0, false, false, false, false⟩),
  (0x7800804000080500, .vcvt ⟨.always, 8, 4, 0, 0, .f64, 80, false, false, false, false⟩),
  (0x7900804060050800, .vcvt8 ⟨.always, 8, 4, 6, 0, .f32, 128, false, false, false, false⟩)]

/-- Words written out from the fields of R37, R40 and R42 to R46: memory forms. -/
def memoryWords : List (W64 × Instr) := [
  (0xA00080400FFE1864, .ld ⟨.always, 8, 4, 0, 8188, false, .z64, .near, false, .acq, .pkg, (.cnt 2), false⟩),
  (0xA10000408000540C, .st ⟨.always, 0, 4, 8, 0, true, .z32, .far, false, .rlx, .core, .none, false⟩),
  (0xA200203000001801, .sld ⟨.always, 2, 3, 0, 0, false, .z64, .near, false, .rlx, .core, (.cnt 0), true⟩),
  (0xA30000305000080D, .sst ⟨.always, 0, 3, 5, 0, false, .z16, .near, false, .rlx, .core, .none, true⟩),
  (0xA40080400000200C, .lds ⟨.always, 8, 4, 0, 0, false, .z128, .near, false, .rlx, .core, .none, false⟩),
  (0xA50000408000000C, .sts ⟨.always, 0, 4, 8, 0, false, .z8, .near, false, .rlx, .core, .none, false⟩),
  (0xA60080300000100D, .ldx ⟨.always, 8, 3, 0, 0, false, .z32, .near, false, .rlx, .core, .none, true⟩),
  (0xA70000408000109C, .stx ⟨.always, 0, 4, 8, 0, false, .z32, .near, false, .rel, .clus, .none, false⟩),
  (0xA80020308000100D, .stcmp ⟨.always, 2, 3, 8, 0, false, .z32, .near, false, .rlx, .core, .none, true⟩),
  (0xA90080300000100B, .ldexp ⟨.always, 8, 3, 0, 0, false, .z32, .near, false, .rlx, .core, (.cnt 5), true⟩),
  (0xAA0000400000060C, .pref ⟨.always, 0, 4, 0, 0, false, .z8, .stream, false, .rlx, .core, .none, false⟩),
  (0xAB00000000000002, .linv ⟨.always, 0, 0, 0, 0, false, .z8, .near, false, .rlx, .core, (.cnt 1), false⟩),
  (0xAC000000000000FC, .fence ⟨.always, 0, 0, 0, 0, false, .z8, .near, false, .ar, .sys, .none, false⟩)]

/-- Words written out from the fields of R37, R40 and R42 to R46: atomic forms. -/
def atomicWords : List (W64 × Instr) := [
  (0xB0008040A0040A5C, .atom ⟨.always, 8, 4, 10, 0, .smax, .none, .pkg, .rel, .z32, true, .none, false⟩),
  (0xB1008040A0C0A07C, .acas ⟨.always, 8, 4, 10, 12, .add, .spec, .core, .rlx, .z64, true, .none, false⟩),
  (0xB2000040A00C004C, .atoms ⟨.always, 0, 4, 10, 0, .exch, .none, .core, .rlx, .z32, false, .none, false⟩),
  (0xB30FF040A0C0005C, .acass ⟨.always, 255, 4, 10, 12, .add, .none, .core, .rlx, .z32, true, .none, false⟩),
  (0xB40000305000006D, .xopen ⟨.always, 0, 3, 5, 0, .add, .none, .core, .rlx, .z64, false, .none, true⟩),
  (0xB500003050000067, .xclose ⟨.always, 0, 3, 5, 0, .add, .none, .core, .rlx, .z64, false, (.cnt 3), true⟩)]

/-- Words written out from the fields of R37, R40 and R42 to R46: engine forms. -/
def engineWords : List (W64 × Instr) := [
  (0xD001003000000080, .fld ⟨.always, 16, 3, 0, 0, 8⟩),
  (0xD100003001000300, .fst ⟨.always, 0, 3, 0, 16, 48⟩),
  (0xD200003050000000, .mma ⟨.always, 0, 3, 5, 0, 0⟩),
  (0xD300200000000040, .mstat ⟨.always, 2, 0, 0, 0, 4⟩),
  (0xD400003050000010, .cpyin ⟨.always, 0, 3, 5, 0, 1⟩),
  (0xD500003050000000, .cpyst ⟨.always, 0, 3, 5, 0, 0⟩),
  (0xD600003050000000, .cpyx ⟨.always, 0, 3, 5, 0, 0⟩),
  (0xD700003050000000, .cpyg ⟨.always, 0, 3, 5, 0, 0⟩),
  (0xD800003050600000, .cpyr ⟨.always, 0, 3, 5, 6, 0⟩),
  (0xD900003002100010, .bndset ⟨.always, 0, 3, 0, 33, 1⟩),
  (0xDA00200000100030, .bndget ⟨.always, 2, 0, 0, 1, 3⟩),
  (0xDB00000000F00000, .bndsel ⟨.always, 0, 0, 0, 15, 0⟩),
  (0xDC00200050000000, .twait ⟨.always, 2, 0, 5, 0, 0⟩),
  (0xDD00200050000000, .tpoll ⟨.always, 2, 0, 5, 0, 0⟩)]

/-- Words written out from the fields of R37, R40 and R42 to R46: sync forms. -/
def syncWords : List (W64 × Instr) := [
  (0xE80003F000000000, .bar ⟨.always, 0, 63, 0x0, 0⟩),
  (0xE900803000F00010, .bararv ⟨.always, 8, 3, 0xF, 1⟩),
  (0xEA00008000300020, .barwt ⟨.always, 0, 8, 0x3, 2⟩),
  (0xEB00800000100070, .barq ⟨.always, 8, 0, 0x1, 7⟩),
  (0xEC00003050000000, .fork ⟨.always, 0, 3, 5, 0, 0⟩),
  (0xED00000000000000, .fjoin ⟨.always, 0, 0, 0x0, 0⟩),
  (0xEE00203000000000, .dqpush ⟨.always, 2, 3, 0, 0, .b32, 0⟩),
  (0xEF00200000000000, .dqpop ⟨.always, 2, 0, 0, 0, .b32, 0⟩),
  (0xF000203000000000, .dqsteal ⟨.always, 2, 3, 0, 0, .b32, 0⟩),
  (0xF100004000800080, .msend ⟨.always, 0, 4, 0, 8, 8⟩),
  (0xF200004080600000, .mrecv ⟨.always, 0, 4, 8, 6, 0⟩),
  (0xF300804000000000, .mprobe ⟨.always, 8, 4, 0, 0, 0⟩),
  (0xF400000000200040, .go ⟨.always, 0, 0x200, 4, 0⟩),
  (0xF500000000008041, .gox ⟨.always, 0, 0x8, 4, 1⟩),
  (0xF600003050600000, .segrep ⟨.always, 0, 3, 5, 6, 0⟩),
  (0xF700503000E00000, .boost ⟨.always, 5, 3, 0xE, 0⟩),
  (0xF800C00000300000, .boostq ⟨.always, 12, 0, 0x3, 0⟩),
  (0xF900000004200000, .trap ⟨.always, 0, 0, 0x42, 0⟩),
  (0xFA00000000000000, .rtr ⟨.always, 0, 0x0, 0, 0⟩),
  (0xFB00200001300030, .rqrd ⟨.always, 2, 0, 0x13, 3⟩),
  (0xFC00004002000030, .rqwr ⟨.always, 0, 4, 0x20, 3⟩),
  (0xFD00A00300100000, .sysrd ⟨.always, 10, 0, 0x3001, 0⟩),
  (0xFE00009200000000, .syswr ⟨.always, 0, 9, 0x2000, 0⟩)]
/-- Every word of a list decodes to the instruction beside it. -/
def decodes (ps : List (W64 × Instr)) : Bool := ps.all (fun p => decide ((decodeWord p.1).toOption = some p.2))

theorem test_decode_scalar : decodes scalarWords = true := by decide
theorem test_decode_lane : decodes laneWords = true := by decide
theorem test_decode_plain : decodes plainWords = true := by decide
theorem test_decode_vector : decodes vectorWords = true := by decide
theorem test_decode_float : decodes floatWords = true := by decide
theorem test_decode_memory : decodes memoryWords = true := by decide
theorem test_decode_atomic : decodes atomicWords = true := by decide
theorem test_decode_engine : decodes engineWords = true := by decide
theorem test_decode_sync : decodes syncWords = true := by decide

/-- The words that the spec writes out itself: R124, R135, R138, R164, R173, R192 (BNDSEL), R200, R219, R220, R231, R358, R359. -/
theorem test_decode_spec_words : decodes [
    (0x4000203040010000, .vadd ⟨.always, 2, 3, 4, 0, .s32, 0, false, false, false, false⟩),
    (0x20A00FFFFFFB0000, .bra ⟨.neg 1, 0, 0xFFFFFFB0, 0, 0⟩),
    (0x59001003FC000005, .vmovi ⟨.always, 1, 0, 0x3FC00000, .f32⟩),
    (0x7900602030454880, .vcvt8 ⟨.always, 6, 2, 3, 4, .f32, 0x488, false, false, false, false⟩),
    (0x7A00602040550800, .vcvtmx ⟨.always, 6, 2, 4, 5, .f32, 0x080, false, false, false, false⟩),
    (0xB000704090004052, .atom ⟨.always, 7, 4, 9, 0, .add, .com, .core, .rlx, .z32, true, .cnt 1, false⟩),
    (0xDC00D000C0000000, .twait ⟨.always, 13, 0, 12, 0, 0⟩),
    (0xDB00000000300000, .bndsel ⟨.always, 0, 0, 0, 3, 0⟩),
    (0xE80003F000000010, .bar ⟨.always, 0, 63, 0, 1⟩),
    (0xE90053F000100010, .bararv ⟨.always, 5, 63, 1, 1⟩),
    (0xF900000004200000, .trap ⟨.always, 0, 0, 0x42, 0⟩),
    (0xFE00009000000000, .syswr ⟨.always, 0, 9, 0x0000, 0⟩),
    (0xFE00009300000000, .syswr ⟨.always, 0, 9, 0x3000, 0⟩),
    (0xFD00A00300100000, .sysrd ⟨.always, 10, 0, 0x3001, 0⟩)] = true := by decide

/-! Well-formedness: one term refused for each kind of check. -/

theorem test_wf_scalar_class : Instr.wf (.sadd ⟨.always, 64, 3, 4, 0, .s32, 0⟩) = false := by decide
theorem test_wf_pair_odd : Instr.wf (.vadd ⟨.always, 3, 4, 6, 0, .s64, 0, false, false, false, false⟩) = false := by decide
theorem test_wf_pair_end : Instr.wf (.vadd ⟨.always, 254, 4, 6, 0, .n64, 0, false, false, false, false⟩) = false := by decide
theorem test_wf_quad_unaligned : Instr.wf (.ld ⟨.always, 6, 4, 0, 0, false, .z128, .near, false, .rlx, .core, .none, false⟩) = false := by decide
theorem test_wf_run_end : Instr.wf (.fld ⟨.always, 248, 3, 0, 0, 0⟩) = false := by decide
theorem test_wf_predicate_destination : Instr.wf (.plog ⟨.always, 7, 1, 2, 0, .b32, 0⟩) = false := by decide
theorem test_wf_type : Instr.wf (.vfadd ⟨.always, 8, 4, 6, 0, .s32, 0, false, false, false, false⟩) = false := by decide
theorem test_wf_unused_register : Instr.wf (.vadd ⟨.always, 2, 3, 4, 5, .s32, 0, false, false, false, false⟩) = false := by decide
theorem test_wf_unused_reuse : Instr.wf (.vadd ⟨.always, 2, 3, 4, 0, .s32, 0, false, false, true, false⟩) = false := by decide
theorem test_wf_reserved_modifier : Instr.wf (.smin ⟨.always, 2, 3, 4, 0, .s32, 0x80⟩) = false := by decide
theorem test_wf_rounding : Instr.wf (.vfadd ⟨.always, 8, 4, 6, 0, .f32, 5, false, false, false, false⟩) = false := by decide
theorem test_wf_condition : Instr.wf (.sset ⟨.always, 2, 3, 4, 0, .s32, 0x600⟩) = false := by decide
theorem test_wf_order : Instr.wf (.ld ⟨.always, 8, 4, 0, 0, false, .z32, .near, false, .rel, .pkg, .none, false⟩) = false := by decide
theorem test_wf_scope : Instr.wf (.ld ⟨.always, 8, 4, 0, 0, false, .z32, .near, false, .rlx, .pkg, .none, false⟩) = false := by decide
theorem test_wf_check_of_bytes : Instr.wf (.st ⟨.always, 0, 4, 8, 0, true, .z8, .near, false, .rlx, .core, .none, false⟩) = false := by decide
theorem test_wf_atomic_use : Instr.wf (.atom ⟨.always, 8, 4, 10, 0, .exch, .com, .core, .rlx, .z32, true, .none, false⟩) = false := by decide
theorem test_wf_offset : Instr.wf (.bra ⟨.always, 0, 0xFFFFFFAC, 0, 0⟩) = false := by decide
theorem test_wf_selector : Instr.wf (.sysrd ⟨.always, 2, 0, 0x3002, 0⟩) = false := by decide
theorem test_wf_barrier_identifier : Instr.wf (.bar ⟨.always, 0, 63, 4, 2⟩) = false := by decide
theorem test_wf_boost_level : Instr.wf (.boost ⟨.always, 5, 3, 9, 0⟩) = false := by decide

/-! The refusals that R49 and R50 list beside their encoded clause. -/

/-- The clause of R50's example at 0, its branch taken as one to its own header. -/
def clauseOf3 (h a b : W64) : State × Grid :=
  ({ State.reset with codes := [(0, { base := 0, words := [h, a, b] })] }, Grid.single 0)
/-- The fault and word index that decoding it gives. -/
def clauseFault (h a b : W64) : Option (DecodeFault × Nat) :=
  match (clauseOf3 h a b).1.decodeClause (clauseOf3 h a b).2 0 false 0 with
  | .ok _ => none
  | .error e => some e

theorem test_clause_accepted : clauseFault 0xC71CFFFE00000000 0x4000203040010000 0x20A00FFFFFFF0000 = none := by decide
theorem test_clause_class : clauseFault 0xC710FFFE00000000 0x4000203040010000 0x20A00FFFFFFF0000 = some (.clause, 2) := by decide
theorem test_clause_header_bit : clauseFault 0xC71CFFFE00000001 0x4000203040010000 0x20A00FFFFFFF0000 = some (.encoding, 0) := by decide
theorem test_clause_swapped : clauseFault 0xC71CFFFE00000000 0x20A00FFFFFFF0000 0x4000203040010000 = some (.clause, 1) := by decide
theorem test_clause_type : clauseFault 0xC71CFFFE00000000 0x40002030400E0000 0x20A00FFFFFFF0000 = some (.encoding, 1) := by decide
theorem test_clause_unused : clauseFault 0xC71CFFFE00000000 0x4000203040510000 0x20A00FFFFFFF0000 = some (.encoding, 1) := by decide
theorem test_clause_guard : clauseFault 0xC71CFFFE00000000 0x4000203040010000 0x20800FFFFFFF0000 = some (.encoding, 2) := by decide
theorem test_clause_offset : clauseFault 0xC71CFFFE00000000 0x4000203040010000 0x20A00FFFFFFAC000 = some (.encoding, 2) := by decide
theorem test_clause_end : clauseFault 0xC72CFFFE00000000 0x4000203040010000 0 = some (.clause, 0) := by decide

/-! Single steps. -/

/-- A machine whose one thread stands at an instruction: `withFetchWord`'s, its group issuing. -/
def base : State := { State.reset.withFetchWord 64 0 with agenda := [], cur := some 1 }
/-- The group that issues. -/
def grp : Group := Group.single 0
/-- Some scalar registers of its warp. -/
def scalars (s : State) (rs : List (Nat × W64)) : State := rs.foldl (fun s r => s.sset 0 r.1 r.2) s
/-- Some lane registers of its thread. -/
def lanes (s : State) (rs : List (Nat × W32)) : State := rs.foldl (fun s r => s.vset 0 r.1 r.2) s
/-- The next state of an outcome, or the reset state. -/
def after (o : Host.Outcome State Fault Refusal) : State := match o with | .next t => t | _ => State.reset

/-- SADD.s32.sat of 2^31 − 1 and 1 (R52). -/
theorem test_sadd_saturates : (after (exec (.sadd ⟨.always, 2, 3, 4, 0, .s32, 0x80⟩) (scalars base [(3, 0x7FFFFFFF), (4, 1)]))).sget 0 2 = 0x7FFFFFFF := by
  decide
/-- SADD.s32 of the same wraps, and its result is sign-extended (R52, R90). -/
theorem test_sadd_wraps :
    (after (exec (.sadd ⟨.always, 2, 3, 4, 0, .s32, 0⟩) (scalars base [(3, 0x7FFFFFFF), (4, 1)]))).sget 0 2 = 0xFFFFFFFF80000000 := by decide
/-- Division by zero: all ones, and the dividend as remainder (R52). -/
theorem test_sdiv_by_zero : (after (exec (.sdiv ⟨.always, 2, 3, 4, 0, .n32, 0⟩) (scalars base [(3, 7)]))).sget 0 2 = 0xFFFFFFFF := by decide
theorem test_sdiv_rem_by_zero : (after (exec (.sdiv ⟨.always, 2, 3, 4, 0, .n32, 0x100⟩) (scalars base [(3, 7)]))).sget 0 2 = 7 := by decide
/-- A shift by the width leaves sign bits (R52). -/
theorem test_sshr_by_width :
    (after (exec (.sshr ⟨.always, 2, 3, 4, 0, .s32, 0⟩) (scalars base [(3, 0xFFFFFFF8), (4, 32)]))).sget 0 2 = 0xFFFFFFFFFFFFFFFF := by decide
/-- A source that is the destination: the field [11:4] of 0xF50, sign-extended (R92). -/
theorem test_sbfx_in_place :
    (after (exec (.sbfx ⟨.always, 3, 3, 4, 0, .s32, 0⟩) (scalars base [(3, 0xF50), (4, 0x804)]))).sget 0 3 = 0xFFFFFFFFFFFFFFF5 := by decide
/-- A destination sz discards (R39). -/
theorem test_smovi_to_sz : (after (exec (.smovi ⟨.always, 63, 0, 5, .n64⟩) base)).sr = base.sr := by decide
/-- A guard that is false: nothing is written, and the group goes on (R38). -/
theorem test_guard_false : (after (exec (.vmovi ⟨.pos 0, 1, 0, 5, .n32⟩) base)).v = [] := by decide
/-- A step runs the word R124 writes out: v1 becomes 1.5. -/
theorem test_step_vmovi : (after (step (State.reset.withFetchWord 64 0x59001003FC000005))).vget 0 1 = 0x3FC00000 := by decide
/-- The 64-bit sum of R120's example, its high half: 2 + 3 with the carry. -/
theorem test_vaddc_carry_in :
    (after (exec (.vaddc ⟨.always, 7, 3, 5, 1, .n32, 0xF0, false, false, false, false⟩) ((lanes base [(3, 2), (5, 3)]).pset 0 1 true))).vget 0 7 = 6 := by decide
/-- VFLDX.f32 of 1.5 with n = −149 rounds to 2^−148 (R133). -/
theorem test_vfldx_subnormal :
    (after (exec (.vfldx ⟨.always, 8, 4, 6, 0, .f32, 0, false, false, false, false⟩) (lanes base [(4, 0x3FC00000), (6, 0xFFFFFF6B)]))).vget 0 8 = 2 := by
  decide

/-- The block of R138's example: lane 3 does not contribute. -/
def mxBlock : List (Option XR) :=
  ([some 0x42C00000, some 0xC0400000, some 0x3E200000, none, some 0, some 0x42C80000, some 0x39800000, some 0x80000000] : List (Option Nat)).map
    (fun x => x.map Fmt.f32.value)
theorem test_vcvtmx_scale : mxScale (.f8 4 false false) mxBlock = 0x7E := by decide
theorem test_vcvtmx_codes : narrowBlock (.f8 4 false false) .rne false false (scaleBlock 0x7E mxBlock) =
    [some 0x7C, some 0xD4, some 0x32, none, some 0, some 0x7C, some 0, some 0] := by decide

/-- The bounds of R192's example, −8 and 8 with a clamp: a stored 9.5 becomes 8, a stored NaN −8. -/
theorem test_bound_clamp : (boundList { low := 0xC1000000, high := 0x41000000, act := 1 } .f32 [0x41180000, 0x7FC00000]) =
    (2, [0x41000000, 0xC1000000]) := by decide
/-- The completion word of R180's example: SEQ 2, KIND 2, DONE. -/
theorem test_completion_word : completionWord 2 0 0 2 false false false = 0x0002000000002001 := by decide
/-- Signed and unsigned maximum of −1 and 1 (R158). -/
theorem test_atomic_maximum : (aopNew .smax 32 0xFFFFFFFF 1, aopNew .umax 32 0xFFFFFFFF 1) = (1, 0xFFFFFFFF) := by decide
/-- CRC-32C of the letter a, a published value. -/
theorem test_crc32c : crc32c 0xFFFFFFFF [0x61] = 0xC1D04330 := by decide
/-- TRAP 0x42 with a handler at 0: its thread stands there in handler state, to resume after the TRAP (R224, R225). -/
theorem test_trap_enters : (SMap.look (after (exec (.trap ⟨.always, 0, 0, 0x42, 0⟩) { base with ctxs := [(0, { handler := 1 })] })).threads 0).map
    (fun x => (x.handler, x.pc, x.rpc)) = some (true, 0, 16) := by decide
/-- With no handler the supervisor takes it (R225): the context's hard halt begins. -/
theorem test_trap_supervisor : ((SMap.look (after (exec (.trap ⟨.always, 0, 0, 0x42, 0⟩) base)).ctxs 0).bind Ctx.halting) = some 4 := by decide

/-! What the statements suppose: for each, a state and operands that meet its hypotheses together. -/

/-- The machine of `base` with addresses and one lane of a mask in its registers, and an extent over the first megabyte. -/
def rich : State :=
  lanes (scalars { base with cores := [(0, { ctx := some 0, exts := [{ va := 0, len := 0x100000, pa := 0x10000, r := true, w := true, stale := false }] })] }
    [(3, 0x1000), (5, 1)]) [(4, 0x1000)]
/-- The same in a DET context. -/
def det : State := { rich with ctxs := [(0, { det := true })] }
/-- Nothing stands between an instruction and its effect in a state. -/
def readyIn (s : State) (i : Instr) : Bool := i.wf && s.clear i .always 1 grp
/-- And in `rich`. -/
def ready (i : Instr) : Bool := readyIn rich i
/-- The instructions of a list of words. -/
def forms (ps : List (W64 × Instr)) : List Instr := ps.map Prod.snd
/-- An access passes its checks. -/
def passes (s : State) (th : Nat) (q : Ask) : Bool := match s.check th q with | .ok _ => true | _ => false

theorem witness_ScalarArithmetic_ScalarFields_ScalarChoicesAndImmediates : (forms scalarWords).all ready = true := by decide
theorem witness_PredicatesAndPlainControl :
    ([.pfrom ⟨.always, 1, 3, 0, 0, .b32, 0x100⟩, .plog ⟨.always, 1, 2, 3, 0, .b32, 0x900⟩, .nop .always, .exit ⟨.always, 0, 0, 0, 0⟩,
      .yield ⟨.always, 0, 0, 0, 0, .b32, 0⟩, .vcmp ⟨.always, 1, 4, 6, 0, .s32, 0x20, false, false, false, false⟩,
      .vfcmp ⟨.always, 1, 4, 6, 0, .f32, 0x70, false, false, false, false⟩] : List Instr).all ready = true := by decide
/-- VMAD of both widths, VADDC with a carry, VCVT8 widening and narrowing stand in these lists. -/
theorem witness_VectorArithmetic_VectorBitsAndMoves :
    (.vmad ⟨.always, 8, 4, 6, 10, .s32, 0, false, false, false, false⟩ :: .vcvt8 ⟨.always, 8, 4, 0, 0, .f32, 0x90, false, false, false, false⟩
      :: forms vectorWords).all ready = true := by decide
theorem witness_FloatForms : (forms floatWords).all ready = true := by decide
theorem witness_Transfers :
    ([.bra ⟨.always, 0, 0xFFFFFFF8, 0, 0⟩, .brx ⟨.always, 0, 0, 4, 0⟩, .call ⟨.always, 0, 8, 0, 0⟩, .callx ⟨.always, 0, 8, 5, 1⟩,
      .ret ⟨.always, 0, 0, 30, 0⟩] : List Instr).all ready = true ∧
    rich.gridOfTeam grp.team = some (Grid.single 0) ∧ ∀ pc, rich.destOf (Grid.single 0) 0 pc = .here := ⟨by decide, by decide, fun _ => rfl⟩
theorem witness_SpecialRegisterForms :
    let srd := [Instr.srd ⟨.always, 4, 0, 0xC, 0⟩, .srd ⟨.always, 2, 0, 0x13, 1⟩, .swr ⟨.always, 0, 9, 0xE, 1⟩]
    srd.all (readyIn rich) = true ∧ rich.curCtx.det = false ∧ srd.all (readyIn det) = true ∧ det.curCtx.det = true ∧ detSpecial 0xC = true := by decide
theorem witness_SpecialRegisterValues : SMap.look rich.teams (teamOfTh 0) = some (Team.single State.reset 0) ∧
    SMap.look rich.grids 0 = some (Grid.single 0) := by decide

/-- The one thread of `rich` is a whole rendezvous for any mask with lane 0. -/
theorem rich_gathered (m : W32) (h : laneBit m 0 = true) : rich.gathered grp 0 m := by
  refine ⟨by decide, by decide, ?_, by decide, ?_, by decide⟩
  case refine_2 =>
    intro e he _ _
    exact .inr ⟨0, by decide, (by decide : ∀ e ∈ rich.threads, laneOfTh 0 = e.2.lane) e he⟩
  intro th ht
  refine ⟨Thread.new 0 0 0 (.grouped 1) 0, ?_⟩
  simp only [grp, Group.single, List.mem_singleton] at ht
  subst ht
  exact ⟨by decide, by decide, by decide, by decide, by simpa [Thread.new] using h⟩

theorem witness_ScalarRendezvous_LaneRendezvous :
    (.vcvt8 ⟨.always, 8, 4, 6, 5, .f32, 0x4C0, false, false, false, false⟩ :: forms laneWords).all ready = true ∧
    rich.gathered grp 0 (lo32 (rich.sget 0 5)) := ⟨by decide, rich_gathered _ (by decide)⟩

theorem rich_room (w : Wctr) (q : Bool) : rich.hasRoom grp .always w q := by
  refine ⟨?_, fun _ => by decide⟩
  cases w with
  | none => rfl
  | cnt n => revert n; decide

/-- Fields of a load, of a store and of an atomic, at 0x1000 and on counter 2. -/
def ldF : Me := ⟨.always, 8, 4, 0, 0, false, .z64, .near, false, .rlx, .core, .cnt 2, false⟩
def sldF : Me := { ldF with d := 2, a := 3, as_ := true }
def stF : Me := { ldF with d := 0, b := 8 }
def sstF : Me := { ldF with d := 0, a := 3, b := 5, as_ := true }
def atF : Ma := ⟨.always, 8, 4, 10, 0, .smax, .none, .pkg, .rel, .z32, true, .cnt 2, false⟩
def casF : Ma := ⟨.always, 8, 4, 10, 12, .add, .spec, .core, .rlx, .z64, true, .cnt 2, false⟩

theorem witness_Loads :
    ([.ld ldF, .sld sldF, .lds ldF, .ldx ldF] : List Instr).all ready = true ∧ rich.hasRoom grp .always (.cnt 2) false ∧
    rich.warpsOf (rich.active grp .always) = [0] ∧ rich.performers grp .always false 0 = [0] ∧
    passes rich 0 (loadAsk ldF .global rich 0) = true ∧ passes rich 0 (loadAsk sldF .global rich 0) = true ∧
    passes rich 0 (loadAsk ldF .local_ rich 0) = true ∧ passes rich 0 (loadAsk ldF .group rich 0) = true := by
  refine ⟨by decide, rich_room _ _, ?_⟩; decide
theorem witness_Stores :
    (([.st stF, .sst sstF, .sts stF, .stx stF].all ready && [.st { stF with chk := true },
      .sts { stF with chk := true }, .stx { stF with chk := true }].all ready) = true) ∧ rich.hasRoom grp .always (.cnt 2) true ∧
    passes rich 0 (storeAsk stF .global false rich 0) = true ∧ passes rich 0 (storeAsk sstF .global true rich 0) = true ∧
    passes rich 0 (storeAsk stF .local_ false rich 0) = true ∧ passes rich 0 (storeAsk stF .group false rich 0) = true ∧
    SMap.look rich.warps 0 = some (Warp.fresh 0 0) ∧ rich.gridOfTeam 0 = some (Grid.single 0) ∧ (rich.boundOf 0).act = 0 := by
  refine ⟨by decide, rich_room _ _, ?_⟩; decide
/-- A bound that traps is met as well, by data inside it. -/
theorem witness_Stores_trapping : (let s := { rich with ctxs := [(0, { bounds := [(0, { act := 2 })] })] }
    ((s.boundOf 0).act, (boundApply (s.boundOf 0) .z32 0).1)) = (2, 0) := by decide
/-- Each branch of the clamp is reached: below, at the low bound, at the high bound, above. -/
theorem witness_BoundActions :
    (let b : Bound := { low := 0xC1000000, high := 0x41000000, act := 1 }
     [0xC1000001, 0xC1000000, 0x41000000, 0x41000001].map (boundElem b .f32)) =
    [(true, 0xC1000000), (false, 0xC1000000), (false, 0x41000000), (true, 0x41000000)] := by decide
theorem witness_Atomics :
    ([.atom atF, .acas casF, .atoms { atF with scope := .clus }, .acass { casF with use_ := .none }, .acas { casF with use_ := .none }].all ready &&
      [.atom { atF with aop := .fadd }, .acas casF].all (readyIn det)) = true ∧
    rich.hasRoom grp .always (.cnt 2) false ∧ rich.curCtx.det = false ∧ det.curCtx.det = true ∧
    passes rich 0 (atomAsk atF .global rich 0) = true ∧ passes rich 0 (atomAsk casF .global rich 0) = true ∧
    passes rich 0 (atomAsk atF .local_ rich 0) = true ∧ ∀ c, rich.requestsAt c = [] := by
  refine ⟨by decide, rich_room _ _, by decide, by decide, by decide, by decide, by decide, fun _ => rfl⟩

/-- XOPEN of one cell at 0x1000, and with s0 for the count. -/
def xF : Ma := ⟨.always, 0, 3, 5, 0, .add, .none, .core, .rlx, .z64, false, .cnt 2, true⟩
theorem witness_FencesAndCells :
    ([.pref { ldF with d := 0, b := 0, sz := .z8 }, .linv ⟨.always, 0, 0, 0, 0, false, .z8, .near, false, .rlx, .core, .cnt 2, false⟩,
      .fence ⟨.always, 0, 0, 0, 0, false, .z8, .near, false, .ar, .sys, .cnt 2, false⟩, .xopen xF, .xclose xF, .xopen { xF with b := 63 },
      .xclose { xF with b := 63 }] : List Instr).all ready = true ∧ rich.hasRoom grp .always (.cnt 2) false ∧
    ((rich.sget 0 5).toNat, (rich.checkCells 0 (rich.sget 0 3) 0 1).2.isNone, (rich.checkCells 0 (rich.sget 0 3) 0 1).1.length) = (1, true, 1) ∧
    rich.warpsOf grp.threads = [0] ∧ (SMap.look rich.warps 0).isSome = true ∧ rich.active grp .always = [0] ∧ (rich.sget 0 63).toNat = 0 ∧
    readyIn (scalars rich [(5, 65537)]) (.xclose xF) = true ∧ 65536 < ((scalars rich [(5, 65537)]).sget 0 5).toNat := by
  refine ⟨by decide, rich_room _ _, ?_⟩; decide

/-- Its address above 2^48, and beyond the scratchpad. -/
def far : State := lanes rich [(5, 0x10000)]
/-- No extent. -/
def bare : State := { rich with cores := [(0, { ctx := some 0 })] }
/-- The code a check traps with, and the address it misses. -/
def trapCode (c : Check) : Option Nat := match c with | .trap n => some n | _ => none
def missAt (c : Check) : Option Nat := match c with | .park a => some a | _ => none
/-- One lane's access, and a load of it for v8 under way as operation 9. -/
def acc1 : LaneAcc := { th := 0, space := .glob, addr := 0x1000, pa := 0x11000, pa2 := 0x11008, data := 5, data2 := 0, got1 := none, got2 := none, flt := 0 }
def op1 (kind : MKind) (l : LaneAcc) : MemOp := { baseOp kind with width := 8, lanes := [l], dst := some 8, regs := 2, inst := 9, ret := true }
def withOp (o : MemOp) : State := { rich with ops := [(9, o)] }
theorem witness_FailedAccesses :
    ([.ld ldF, .lds ldF, .ldx ldF, .st stF, .sts stF, .stx stF, .atom atF, .acas casF, .atoms { atF with scope := .clus },
      .acass { casF with use_ := .none }] : List Instr).all (fun i => readyIn far i && readyIn bare i) = true ∧
    (far.hasRoom grp .always (.cnt 2) true ∧ bare.hasRoom grp .always (.cnt 2) true) ∧
    (far.warpsOf grp.threads = [0] ∧ SMap.look far.warps 0 = some (Warp.fresh 0 0) ∧ far.curCtx.det = false ∧ far.active grp .always = [0]) ∧
    trapCode (far.check 0 (loadAsk ldF .global far 0)) = some 0x06 ∧ trapCode (far.check 0 (loadAsk ldF .local_ far 0)) = some 0x06 ∧
    trapCode (far.check 0 (atomAsk atF .global far 0)) = some 0x06 ∧ missAt (bare.check 0 (loadAsk ldF .global bare 0)) = some 0x1000 ∧
    (bare.warpsOf grp.threads = [0] ∧ SMap.look bare.warps 0 = some (Warp.fresh 0 0) ∧ bare.curCtx.det = false) ∧
    (let s := withOp (op1 .load { acc1 with flt := 8 }); s.alive 0 = true ∧ SMap.look s.warps 0 = some (Warp.fresh 0 0)) := by
  refine ⟨by decide, ⟨⟨by decide, fun _ => by decide⟩, ⟨by decide, fun _ => by decide⟩⟩, ?_⟩; decide

/-- What the clauses of the order of checks look at, each met by an access of 8 bytes at an address. -/
def askAt (a : W64) (wr : Bool) : Ask := { wh := .global, addr := a, width := 8, align := 8, isRead := !wr, isWrite := wr }
/-- A watchpoint on writes of 0x1000, an extent that may not be written, and a copy's destination there. -/
def watched : State := { rich with ctxs := [(0, { watchA := [0x1000, 0, 0, 0], watchC := [0x305, 0, 0, 0] })] }
def readOnly : State :=
  { rich with cores := [(0, { ctx := some 0, exts := [{ va := 0, len := 0x1000, pa := 0x10000, r := true, w := false, stale := false }] })] }
def locked : State :=
  { rich with clusters := [(0, { locks := [{ op := 7, ctx := 0, src := ⟨.glob, 0x2000, 0x2040⟩, dst := some ⟨.glob, 0x1000, 0x1040⟩ }] })] }
theorem witness_CheckOrder :
    trapCode (rich.check 0 (askAt 0x1000000000000 false)) = some 0x06 ∧ trapCode (rich.check 0 (askAt 0xFFFFFFFFFFFC false)) = some 0x05 ∧
    trapCode (watched.check 0 (askAt 0x1000 true)) = some 0x0D ∧ trapCode (rich.check 0 (askAt 0xFE0000000000 false)) = some 0x08 ∧
    missAt (rich.check 0 (askAt 0x100000 false)) = some 0x100000 ∧ trapCode (readOnly.check 0 (askAt 0x0 true)) = some 0x08 ∧
    trapCode (locked.check 0 (askAt 0x1038 false)) = some 0x09 ∧ passes locked 0 (askAt 0x1040 false) = true ∧
    trapCode (rich.check 0 { askAt 229369 false with wh := .local_, align := 1 }) = some 0x06 ∧
    passes rich 0 { askAt 229368 false with wh := .local_, align := 1 } = true := by decide

/-- A load whose lane nothing holds back, and a store at the head of its queue, to the scratchpad and to memory. -/
theorem witness_MemoryReturns :
    (let s := withOp (op1 .load acc1)
     s.dropsReturn (op1 .load acc1) = false ∧ (8 + 2 ≤ 255) ∧
       ((acc1.pieces 8).all (fun p => !s.loadBlocked 9 (op1 .load acc1) acc1 p false && !s.badPiece p)) = true) ∧
    (let o := { op1 .store acc1 with dst := none }
     (withOp o).headStore 0 = some (9, o) ∧ (withOp o).mayDrain 9 o = true ∧ acc1.n1 o.width = o.width) ∧
    (let l := { acc1 with space := .scr 0, pa := 0x1000 }
     let o := { op1 .store l with dst := none }
     (withOp o).headStore 0 = some (9, o) ∧ (withOp o).mayDrain 9 o = true ∧ l.n1 o.width = o.width) := by decide

def pend1 : Pend :=
  { wk := 0, th := 0, core := 0, pa := 0x11000, bytes := [1, 2], stage := .core, va := 0x1000, data := 0x201, pc := 8, w := 6, op := 9, full := false }
theorem witness_WritesPerformed :
    (let s := { rich with pend := [(4, pend1)] }
     SMap.look s.pend 4 = some pend1 ∧ s.pendFirst 4 pend1 = false ∧ s.pendCell pend1 = false) ∧
    SMap.look (withOp (baseOp .pref)).ops 9 = some (baseOp .pref) ∧ SMap.look (withOp (baseOp .linv)).ops 9 = some (baseOp .linv) := by decide
theorem witness_AtomicValues : 0xFFFFFFFF < 2 ^ 32 ∧ 8 * (op1 .cas acc1).width = 64 ∧ acc1.data.toNat = 5 ∧ 5 < 2 ^ 64 := by decide
theorem witness_AtomicsPerformed :
    (let o := op1 .atomic acc1
     let s := withOp o
     s.partsOf 9 0 = [(9, o, [acc1])] ∧ s.requestReady 9 0 = true ∧ s.requestFirst 9 0 = false ∧ s.serveFault o acc1 = 0 ∧ o.use_ ≠ .qnt ∧ o.aop ≠ .xadd) ∧
    (let l := { acc1 with got1 := some [0, 0, 0, 0, 0, 0, 0, 0] }
     let o := { op1 .atomic l with held := true, ret := false, use_ := .qnt, dst := none }
     SMap.look (withOp o).ops 9 = some o ∧ (withOp o).ops.filter (fun e => e.2.inst == o.inst && !e.2.qntLanes.isEmpty) = [(9, o)] ∧
       ((withOp o).older 9 0).isEmpty = true) ∧
    (let o := { op1 .atomic acc1 with aop := .xadd, ret := false, dst := none }
     let s := { withOp o with cells := [(0x11000, { sum := 0, nan := false, pinf := false, ninf := false, allNeg0 := true, any := false, ctx := 0 })] }
     s.partsOf 9 0 = [(9, o, [acc1])] ∧ s.requestReady 9 0 = true ∧ s.requestFirst 9 0 = false ∧ (s.cellAt acc1.pa).isSome = true) := by decide +kernel

/-- A context whose handler is at 0, and one with a thread already in handler state. -/
def handled : State := { rich with ctxs := [(0, { handler := 1 })] }
def inHand : State := handled.updThread 0 (fun t => { t with handler := true, rpc := 0 })
def trap1 : TrapReq := { th := 0, code := 15, info := 0x42, rpc := 16, entry := none }
/-- A second thread of the warp, in lane 1, in handler state. -/
def besideHand : State := { handled with threads := handled.threads ++ [(1, { Thread.new 0 1 0 .ready 0 with handler := true })] }
theorem witness_TrapDelivery :
    (SMap.look handled.warps 0 = some (Warp.fresh 0 0) ∧ (SMap.look handled.threads 0).map Thread.wk = some 0 ∧
      handled.handlerOf 0 = some 0 ∧ handled.inHandler 0 = false ∧ (Warp.fresh 0 0).held = []) ∧
    (SMap.look besideHand.warps 0 = some (Warp.fresh 0 0) ∧ besideHand.handlerOf 0 = some 0 ∧ besideHand.inHandler 0 = true) ∧
    (rich.handlerOf 0 = none ∧ rich.gridOfTeam (teamOfTh 0) = some (Grid.single 0) ∧ (SMap.look rich.teams 0).isSome = true ∧
      (SMap.look rich.ctxs 0).map Ctx.fault = some none ∧ (SMap.look rich.threads 0).isSome = true) := by decide
theorem witness_SoftwareTrap : ready (.trap ⟨.always, 0, 0, 0x42, 0⟩) = true := by decide

/-- A replay entry of lane 0. -/
def entry1 : REntry :=
  { kind := 0, trap := 8, w := 6, gen := 0, drop := false, halt := false, rtr := 0, tok := 0, idx := 0, mask := 1, waits := 0, pc := 8, aux := 0, elems := 0,
    lanes := [(0, { addr := 0x1000, data := 0, stat := 0 })] }
def queued : State := scalars (inHand.updWarp 0 (fun w => { w with rq := [entry1] })) [(3, 0)]
theorem witness_HandlerForms :
    (readyIn inHand (.rtr ⟨.always, 0, 0, 0, 0⟩) = true ∧ inHand.gridOfTeam 0 = some (Grid.single 0) ∧
      inHand.warpsOf (inHand.active grp .always) = [0] ∧ (SMap.look inHand.warps 0).map (fun w => (w.rq, w.wtimer)) = some ([], 0) ∧ grp.sleepers = [] ∧
      (SMap.look inHand.threads 0).map (fun t => (t.handler, t.msgOvf, t.timer, t.slp)) = some (true, false, false, none) ∧ inHand.isHeader 0 (inHand.rpcOf 0) = true) ∧
    (let s := inHand.updThread 0 (fun t => { t with rpc := 8 })
     readyIn s (.rtr ⟨.always, 0, 0, 0, 0⟩) = true ∧ s.isHeader 0 (s.rpcOf 0) = false ∧ s.clauseOf 0 (s.rpcOf 0) = some (0, oneWordHeader, 0) ∧
       (s.decodeClause (Grid.single 0) 0 false 0).toOption.isSome = true) ∧
    ([.rtr ⟨.always, 0, 0, 0, 0⟩, .rqrd ⟨.always, 2, 0, 0x13, 3⟩, .rqwr ⟨.always, 0, 4, 0x20, 3⟩] : List Instr).all ready = true ∧
    (SMap.look rich.threads 0).map Thread.handler = some false ∧
    ([.rqrd ⟨.always, 2, 0, 0x13, 3⟩, .rqwr ⟨.always, 0, 4, 0x20, 3⟩, .rqwr ⟨.always, 0, 4, 0x00, 3⟩] : List Instr).all (readyIn queued) = true ∧
    (SMap.look queued.threads 0).map Thread.handler = some true ∧ (queued.rqOf 0)[0]? = some entry1 ∧ (SMap.look entry1.lanes 0).isSome = true ∧
    queued.threadAt 0 0 = some 0 ∧ SMap.sorted queued.threads = true := by decide

/-- The least lane alone contributes; the panel, list or block it names stands in its team's scratchpad. -/
theorem rich_gatheredFor (w : Nat) : rich.gatheredFor grp 0 w := by
  refine ⟨rich_gathered _ (by decide), Warp.fresh 0 0, Grid.single 0, by decide, by decide, fun _ => ?_⟩
  simp [Warp.count, Warp.fresh]

def stcmpF : Me := { sstF with d := 2, b := 8 }
def ldexpF : Me := { sldF with d := 8 }
theorem witness_CompactForms :
    (ready (.stcmp stcmpF) && ready (.ldexp ldexpF)) = true ∧ rich.gatheredFor grp 0 2 ∧ rich.queueLen 0 < 32 ∧
    (rich.inOrder grp .always).zip (List.range 32) = [(0, 0)] ∧
    passes rich 0 ⟨.global, 0x1000, 8, 1, false, true, 0, 0, true, true⟩ = true ∧ passes rich 0 ⟨.global, 0x1000, 8, 1, true, false, 0, 0, true, true⟩ = true ∧
    (let s := scalars rich [(3, 0x1000000000000)]
     readyIn s (.stcmp stcmpF) = true ∧ trapCode (s.check 0 ⟨.global, 0x1000000000000, 8, 1, false, true, 0, 0, true, true⟩) = some 0x06) := by
  refine ⟨by decide, rich_gatheredFor _, ?_⟩; decide +kernel
theorem witness_FragmentForms :
    (ready (.fld ⟨.always, 16, 3, 0, 0, 0⟩) && ready (.fst ⟨.always, 0, 3, 0, 16, 0x30⟩)) = true ∧ (∀ w, rich.gatheredFor grp 0 w) ∧
    passes rich 0 ⟨.local_, 0x1000, fragBytes 0, 32, true, false, 0, 0, true, true⟩ = true ∧
    passes rich 0 ⟨.local_, 0x1000, fragBytes 0x30, 32, false, true, 0, 0, true, true⟩ = true ∧ rich.queueLen 0 < 32 ∧ (rich.boundOf 0).act = 0 := by
  refine ⟨by decide, rich_gatheredFor, ?_⟩; decide +kernel

/-- A block of bytes at 0x1000 of the scratchpad. -/
def withBlock (b : List Byte) : State := { rich with scr := (b.zip (List.range b.length)).filterMap (fun e => if e.1 = 0 then none else some (0x1000 + e.2, e.1)) }
/-- A parameter block: f8p4se, one tile, K 64, A at v16, B at v32, D at v48, no scales, overwrite (R175). -/
def mmaBlock : List Byte := [0x84, 0x84, 0, 0, 64, 0, 16, 32, 40, 48, 255, 255, 1, 0, 0, 0] ++ List.replicate 48 0
/-- A descriptor of 32 binary32 elements from 0x2000 to 0x4000 (R185). -/
def copyBlock : List Byte :=
  leBytes 8 0x2000 ++ leBytes 8 0x4000 ++ leBytes 8 0 ++ leBytes 8 (1 + 16 * 3 + 4096 * 3) ++ leBytes 3 32 ++ leBytes 6 4 ++ List.replicate 87 0
/-- The block the elected thread reads. -/
def readAt (s : State) (n : Nat) : Option (List Byte) :=
  match s.check 0 ⟨.local_, 0x1000, n, 64, true, false, 0, 0, true, false⟩ with
  | .ok a => some (s.readBlock 0 0 a n)
  | _ => none
theorem witness_MatrixIssue :
    (let s := withBlock mmaBlock
     readyIn s (.mma ⟨.always, 0, 3, 5, 0, 0⟩) = true ∧ s.active grp .always = [0] ∧ s.warpsOf [0] = [0] ∧ readAt s 64 = some mmaBlock ∧
       ((mmaPar 255 mmaBlock).map (fun p => (p.dRange, p.kn, p.ovw)) = some ((48, 8), 1, true)) ∧ s.tableUse 0 < 16 ∧ s.vbusy = []) ∧
    (readyIn rich (.mma ⟨.always, 0, 3, 5, 0, 0⟩) = true ∧ readAt rich 64 = some (List.replicate 64 0) ∧ mmaPar 255 (List.replicate 64 0) = none) := by
  decide +kernel
theorem witness_CopyIssue :
    (let s := withBlock copyBlock
     [.cpyin ⟨.always, 0, 3, 5, 0, 0⟩, .cpyst ⟨.always, 0, 3, 5, 0, 0⟩, .cpyx ⟨.always, 0, 3, 5, 0, 0⟩, .cpyg ⟨.always, 0, 3, 5, 0, 0⟩,
        .cpyr ⟨.always, 0, 3, 5, 6, 0⟩].all (readyIn s) = true ∧ readAt s 128 = some copyBlock ∧
       [4, 5, 6, 7, 8].all (fun k => match descOf k 0 copyBlock with
         | some c => (match s.copyCheck 0 0 c with | .ok _ _ _ => true | _ => false)
         | none => false) = true ∧ (s.cluster 0).locks.length < 32 ∧ s.tableUse 0 < 16) ∧
    descOf 4 0 (List.replicate 128 0) = none ∧
    (let b := leBytes 8 0x1000000000000 ++ copyBlock.drop 8
     (descOf 4 0 b).map (fun c => (withBlock b).copyCheck 0 0 c) = some (.trap 0x06)) := by decide +kernel

def bndF : En := ⟨.always, 0, 3, 0, 0x13, 1⟩
theorem witness_EngineRegisters :
    ([.mstat ⟨.always, 2, 0, 0, 0, 4⟩, .mstat ⟨.always, 2, 0, 0, 0, 2⟩, .bndset bndF, .bndget ⟨.always, 2, 0, 0, 3, 3⟩, .bndsel ⟨.always, 0, 0, 0, 3, 0⟩,
      .twait ⟨.always, 2, 0, 5, 0, 0⟩, .tpoll ⟨.always, 2, 0, 5, 0, 0⟩].all ready &&
      [.tpoll ⟨.always, 2, 0, 5, 0, 0⟩, .mstat ⟨.always, 2, 0, 0, 0, 2⟩, .mstat ⟨.always, 2, 0, 0, 0, 0⟩].all (readyIn det)) = true ∧
    rich.gridOfTeam grp.team = some (Grid.single 0) ∧ (SMap.look rich.ctxs 0).isSome = true ∧ rich.warpsOf (rich.active grp .always) = [0] ∧
    rich.curCtx.det = false ∧ det.curCtx.det = true ∧ rich.sbusy = [] := by decide
/-- A token that is pending is polled as well. -/
theorem witness_EngineRegisters_pending :
    (let s := { rich with sbusy := [(skey 0 5, 7)] }; readyIn s (.tpoll ⟨.always, 2, 0, 5, 0, 0⟩) && (SMap.look s.ops 7).isNone) = true := by decide

/-- A grid whose teams are all resident, and two threads of one warp, of which the second is elsewhere. -/
def coRes : State := { rich with grids := [(0, { Grid.single 0 with cores := true })] }
def pairUp : State := { rich with threads := rich.threads ++ [(1, Thread.new 0 1 0 .ready 0)] }
/-- A barrier whose first phase is over. -/
def phased : State := { rich with bars := [(16, { phase := 1, fixed := none, arrived := [], counts := [(0, 1)] })] }
theorem witness_Barriers :
    ([.bararv ⟨.always, 8, 63, 15, 1⟩, .bar ⟨.always, 0, 63, 0, 1⟩, .barwt ⟨.always, 0, 8, 0, 1⟩, .barq ⟨.always, 8, 0, 1, 7⟩].all ready &&
      [.bararv ⟨.always, 8, 63, 1, 3⟩, .bar ⟨.always, 0, 63, 1, 3⟩, .barwt ⟨.always, 0, 8, 1, 3⟩].all (fun i => ready i && readyIn coRes i)) = true ∧
    (rich.barDenied 0 1 = false ∧ rich.barDenied 0 3 = true ∧ coRes.barDenied 0 3 = false) ∧
    (rich.barKeyOf 1 0 0 = 16 ∧ (rich.barAt 16).arrived = [] ∧ rich.barMembers 16 = 1 ∧ SMap.sorted rich.threads = true ∧
      rich.arrivedAt 0 grp.pc = none ∧ rich.sget 0 63 = 0 ∧ rich.relReady rich.nid 0 0 (barScope 1) = true) ∧
    (readyIn pairUp (.bar ⟨.always, 0, 63, 0, 1⟩) = true ∧ pairUp.barMembers 16 = 2 ∧ SMap.sorted pairUp.threads = true) ∧
    (coRes.barKeyOf 3 1 0 = 49 ∧ coRes.barMembers 49 = 1 ∧ (coRes.cluster 0).slewed = none ∧ coRes.slewRank 0 0 < 32) ∧
    (readyIn phased (.barwt ⟨.always, 0, 8, 0, 1⟩) = true ∧ phased.barOver 1 0 0 (phased.vget 0 8) = true ∧ rich.barOver 1 0 0 (rich.vget 0 8) = false) := by
  decide

/-- A grid at depth 10, and a thread that is not its team's leader. -/
def deep : State := { rich with grids := [(0, { Grid.single 0 with depth := 10 })] }
def second : Group := { grp with threads := [1] }
def follower : State := { rich with threads := [(1, Thread.new 0 1 0 (.grouped 1) 0)], groups := [(1, second)] }
theorem witness_NestedGrids :
    (let fork := Instr.fork ⟨.always, 0, 3, 5, 0, 0⟩
     (ready fork && readyIn deep fork) = true ∧ rich.active grp .always = [0] ∧ tidOf 0 = 0 ∧ rich.gridOfTeam 0 = some (Grid.single 0) ∧
       passes rich 0 ⟨.global, 0x1000, 64, 64, true, false, 0, 0, false, true⟩ = true ∧ rich.relReady rich.nid 0 0 .pkg = true ∧
       (deep.gridOfTeam 0).map Grid.depth = some 10 ∧
       (fork.wf && follower.clear fork .always 1 second) = true ∧ follower.active second .always = [1] ∧ tidOf 1 = 1) ∧
    (let fjoin := Instr.fjoin ⟨.always, 0, 0, 0, 0⟩
     (ready fjoin && readyIn pairUp fjoin) = true ∧ SMap.look rich.teams 0 = some (Team.single State.reset 0) ∧ rich.active grp .always = grp.threads ∧
       rich.threads.map Prod.fst = [0] ∧ pairUp.threads.map Prod.fst = [0, 1]) := by decide

/-- Resident mode, with a word in mailbox 7 and none in mailbox 1, whose outbound side is full. -/
def resident : State :=
  { rich with csr := [(0x1020, 0x0A02)], mb := [(1, { outFull := true }), (7, { inW := 5, inFull := true })] }
/-- A word on the core's deque, in a partition of the first cluster. -/
def dequed : State :=
  { rich with csr := [(0x1000, 0x10000)], cores := [(0, { ctx := some 0, deque := [9] })] }
theorem witness_QueueForms :
    (let push := Instr.dqpush ⟨.always, 2, 3, 0, 0, .b32, 0⟩
     let pop := Instr.dqpop ⟨.always, 2, 0, 0, 0, .b32, 0⟩
     let steal := Instr.dqsteal ⟨.always, 2, 6, 0, 0, .b32, 0⟩
     ([push, pop, steal].all (fun i => ready i && readyIn dequed i) && readyIn det steal) = true ∧ rich.warpsOf (rich.active grp .always) = [0] ∧
       rich.relReady rich.nid 0 0 .pkg = true ∧ rich.curCtx.det = false ∧ det.curCtx.det = true ∧
       dequed.partHolds (dequed.partOfTeam 0) 0 = true ∧ (dequed.coreOf 0).ctx = (dequed.gridOfTeam 0).map Grid.ctx ∧
       rich.partHolds (rich.partOfTeam 0) 0 = false) ∧
    ([.mbrd ⟨.always, 2, 0, 7, 0⟩, .mbrd ⟨.always, 2, 0, 0, 0⟩, .mbwr ⟨.always, 0, 3, 7, 0⟩, .mbwr ⟨.always, 0, 3, 1, 0⟩].all
      (fun i => readyIn resident i && ready i) = true ∧ resident.curResident = true ∧ rich.curResident = false ∧ (resident.mbox 0 7).inFull = true ∧
      (resident.mbox 0 0).inFull = false ∧ (resident.mbox 0 7).outFull = false ∧ (resident.mbox 0 1).outFull = true ∧
      resident.ringBlocked 0 = false ∧ resident.relReady resident.nid 0 0 .sys = true) := by decide

theorem witness_Messages :
    (let s := dequed
     [.msend ⟨.always, 0, 4, 0, 8, 2⟩, .mrecv ⟨.always, 0, 4, 8, 6, 0⟩, .mprobe ⟨.always, 8, 4, 0, 0, 0⟩].all (readyIn s) = true ∧
       s.relReady s.nid 0 0 .pkg = true ∧ s.gridOfTeam 0 = some (Grid.single 0) ∧ s.curCtx.det = false ∧ s.active grp .always = [0] ∧
       passes s 0 ⟨.local_, 0, 32, 32, false, true, 0, 0, true, false⟩ = true ∧ s.vget 0 6 = 0 ∧ s.ovfOf 0 0 false = [] ∧ (s.coreOf 0).posted.length < 16 ∧
       s.partHolds (s.partOfTeam 0) ((s.vget 0 4).toNat % 4096 / 4) = true) ∧
    rich.partHolds (rich.partOfTeam 0) ((rich.vget 0 4).toNat % 4096 / 4) = false := by decide

/-- A travelling grid of two segments, its thread in the first. -/
def segOf (base : W64) (len : Nat) : Seg :=
  { base := base, len := len, handler := 0, cores := [0], ringBase := 0, ring := [], admitted := 0, qfull := 0, spills := 0 }
def travels : State :=
  { rich with grids := [(0, { Grid.single 0 with travel := true, segs := [(0, segOf 0 0x100), (1, segOf 0x200 0x100)] })] }
theorem witness_Departures :
    [.go ⟨.always, 0, 0x200, 4, 0⟩, .gox ⟨.always, 0, 0xFFFFF200, 4, 1⟩, .segrep ⟨.always, 0, 3, 5, 6, 0⟩].all (fun i => ready i && readyIn travels i) = true ∧
    (∀ pc, rich.destOf (Grid.single 0) 0 pc = .here) ∧
    ((travels.gridOfTeam 0).map (fun gr =>
      (travels.destOf gr 0 (grp.pc + 0x200), travels.destOf gr 0 (travels.vgetp 0 4 + (0xFFFFF200 : W32).signExtend 64))) = some (.away 1, .away 1)) ∧
    travels.mayDepart 0 (travels.vget 0 4) = true ∧ (SMap.look travels.threads 0).map Thread.stat = some (.grouped 1) := by
  refine ⟨by decide, fun _ => rfl, ?_⟩; decide

/-- A second thread asleep beside the first, and a group whose boost is decided. -/
def dozing : State := { rich with threads := rich.threads ++ [(1, { Thread.new 0 1 0 .asleep 0 with sleepEnd := some 100 })] }
def flagged : State := rich.updTeam 0 (fun t => { t with flag := true })
def boosted : State := rich.updThread 0 (fun t => { t with rdvDone := true })
theorem witness_SleepAndBoost :
    ([.sleep ⟨.always, 0, 0, 100, .n32⟩, .evsig ⟨.always, 0, 0, 0, .n32⟩, .evsig ⟨.always, 0, 0, 1, .n32⟩, .boost ⟨.always, 5, 3, 14, 0⟩].all
      (fun i => ready i && readyIn dozing i) = true) ∧
    (rich.warpsOf (rich.active grp .always) = [0] ∧ rich.sleepersOf 0 = [] ∧ dozing.sleepersOf 0 = [1] ∧ (SMap.look rich.teams 0).map Team.flag = some false ∧
      (SMap.look flagged.teams 0).map Team.flag = some true ∧ (SMap.look rich.threads 0).isSome = true) ∧
    (rich.gridOfTeam 0 = some (Grid.single 0) ∧ (rich.cluster 0).claims = []) ∧
    ((Instr.boost ⟨.always, 5, 3, 14, 0⟩).wf = true ∧ boosted.cur = some 1 ∧ SMap.look boosted.groups 1 = some grp ∧ grp.waited = true ∧
      (SMap.look boosted.threads 0).map Thread.rdvDone = some true) := by decide

theorem witness_BoostQueries :
    ([0, 1, 2, 3].all (fun k => ready (.boostq ⟨.always, 12, 0, k, 0⟩) && readyIn det (.boostq ⟨.always, 12, 0, k, 0⟩)) = true) ∧
    rich.curCtx.det = false ∧ det.curCtx.det = true ∧
    bits (0xF800000000400000 : W64) 56 8 = 0xF8 ∧ 4 ≤ (bits (0xF800000000400000 : W64) 20 16).toNat := by decide

/-- A context at level 2. -/
def root : State := { rich with ctxs := [(0, { level := 2 })] }
def rootDet : State := { rich with ctxs := [(0, { level := 2, det := true })] }
theorem witness_SystemSelectors :
    ([.sysrd ⟨.always, 10, 0, 0x3001, 0⟩, .sysrd ⟨.always, 10, 0, 0x0001, 0⟩, .syswr ⟨.always, 0, 6, 0x2000, 0⟩, .syswr ⟨.always, 0, 6, 0x2001, 0⟩,
      .syswr ⟨.always, 0, 6, 0x2002, 0⟩, .syswr ⟨.always, 0, 6, 0x2010, 0⟩, .syswr ⟨.always, 0, 6, 0x0000, 0⟩].all
      (fun i => ready i && readyIn root i && readyIn rootDet i) = true) ∧
    (rich.gridOfTeam 0 = some (Grid.single 0) ∧ rich.selDenied 0x0001 = false ∧ rich.selDenied 0x3001 = true ∧ rich.selDenied 0x2000 = true ∧
      root.selDenied 0x3001 = false ∧ root.curCtx.det = false ∧ rootDet.curCtx.det = true ∧ ((selRow 0x3001).map SelRow.v) = some true) ∧
    (root.warpsOf (root.active grp .always) = [0] ∧ root.relReady root.nid 0 0 .sys = true ∧ root.sget 0 6 = 0 ∧
      [0x2000, 0x2001, 0x2002, 0x2010].all (fun sel => !root.selDenied sel) = true) ∧
    (SMap.look (rich.selWrite 0 0 0 0).threads 0).isSome = true := by decide

/-! Events. -/

/-- Partition 0 holds cluster 0 and channel group 0; the context's tables map the first gigabyte to itself (R341, R354). -/
def tables : Memory := [(0x100000, 0x01), (0x100001, 0x10), (0x100002, 0x10), (0x101000, 0x0F)]
def paged : State := { rich with csr := [(0x1000, 0x10000), (0x1001, 1)], ctxs := [(0, { root := 0x100000 })], mem := tables }
/-- A thread ready at the clause at 0, its core's extents empty. -/
def waiting : State :=
  { paged with threads := [(0, { Thread.new 0 0 0 .ready 0 with inTable := true })], groups := [], cores := [(0, { ctx := some 0 })] }
/-- A thread parked at an LD of 0x2000, with its entry. -/
def parkEntry : REntry := { entry1 with kind := 1, trap := 0, lanes := [(0, { addr := 0x2000, data := 0, stat := 0 })] }
def parked : State :=
  { waiting with
    threads := [(0, { Thread.new 0 0 8 .extentMiss 0 with parkPc := 16 })]
    codes := [(0, { base := 0, words := [oneWordHeader, 0xA00080400000180C] })]
    warps := [(0, { Warp.fresh 0 0 with rq := [parkEntry] })] }
/-- A message for the thread's team, and a receive it has posted for v8. -/
def note : Flight := { core := 0, grid := 0, team := 0, msg := { srcTh := 5, srcTeam := 3, srcCore := 1, srcLane := 5, tag := 7, words := [1, 2] } }
def recv1 : Recv := { op := 7, team := 0, th := 0, src := 3, tag := 7, anySrc := false, anyTag := false, buf := 0x40, tok := 8 }
def received : State := { rich with msgs := [note], cores := [(0, { ctx := some 0, posted := [recv1] })], vbusy := [(vkey 0 8, 7), (vkey 0 9, 7)] }
theorem witness_CoreEvents :
    (waiting.mayForm 0 = true ∧ (waiting.nextEntry 0).map Prod.fst = some 0 ∧ waiting.gridOfTeam 0 = some (Grid.single 0) ∧
      waiting.clauseBad (Grid.single 0) 0 = false ∧ waiting.fillGroup 0 0 0 = [0] ∧
      (waiting.decodeClause (Grid.single 0) 0 false 0).toOption = some oneWordHeader) ∧
    (parked.wkRuns 0 = true ∧ (parked.rqOf 0)[0]? = some parkEntry ∧ parkEntry.parked = true ∧ parked.parkedWith 0 parkEntry = [0] ∧
      ((List.range 32).filter (laneBit parkEntry.mask)).findSome? (parked.laneMiss 0 0 parkEntry) = some 0x2000 ∧
      (parked.walk 0 0x2000 = .leaf { va := 0, len := 0x40000000, pa := 0, r := true, w := true, stale := false }) ∧
      ({ parked with mem := [] }).walk 0 0x2000 = .unmapped ∧ ({ parked with mem := [(0x100000, 0x10)] }).walk 0 0x2000 = .hold ∧
      parkEntry.mask = maskOf [laneOfTh 0] ∧ ((parked.entryInstr 0 parkEntry).bind formOf).isSome = true) ∧
    (received.msgs[0]? = some note ∧ received.teamByIdx 0 0 = some 0 ∧ SMap.look received.grids 0 = some (Grid.single 0) ∧
      (SMap.look received.teams 0).map Team.at_ = some .placed ∧ received.teamLive 0 ≠ 0 ∧
      (received.coreOf 0).posted.find? (fun r => r.team == 0 && note.msg.fits r.src r.tag r.anySrc r.anyTag) = some recv1 ∧
      SMap.look received.vbusy (vkey 0 8) = some 7 ∧ (SMap.look received.threads 0).map Thread.stat = some (.grouped 1) ∧
      ({ received with cores := [] }).cores = []) ∧
    (let w := { Warp.fresh 0 0 with wtimer := 5, wtAt := 0 }
     let s := { rich with warps := [(0, w)], teams := [(0, { Team.single State.reset 0 with cyc := 9, run := true })] }
     s.wkRuns 0 = true ∧ SMap.look s.warps 0 = some w ∧ s.wtimerOf 0 = 0) ∧
    (let s := { dozing with teams := [(0, { Team.single State.reset 0 with cyc := 100, run := true })] }
     s.thRuns 1 = true ∧ (SMap.look s.threads 1).map (fun u => (u.stat, u.sleepEnd, u.sleepAt, u.msgOvf)) = some (.asleep, some 100, 0, false) ∧
       100 ≤ s.teamCyc (teamOfTh 1) - 0) ∧
    (let s := { rich with clusters := [(0, { slewed := some 0 })] }; (s.cluster 0).slewed = some 0 ∧ 0 ≤ s.now) := by decide +kernel

/-- A departure of thread 0 for segment 1 on core 0, in a travelling grid. -/
def parcel1 : Parcel := { th := 0, pc := 0, mask := 3, regs := [1, 2], pred := 0, seg := 1, dst := 0, full := false, at_ := 0, wait := .none }
def hop (p : Parcel) (queue : List Parcel) : State :=
  { travels with
    flying := [p], cores := [(0, { ctx := some 0, queue := queue, seg := some (0, 1) })]
    threads := [(0, { Thread.new 0 0 0 .parcel 0 with seg := 1 })] }
theorem witness_TravelEvents :
    ((hop parcel1 []).flying[0]? = some parcel1 ∧ ((hop parcel1 []).parcelSeg parcel1).isSome = true ∧
      ((hop parcel1 []).parcelSeg parcel1).map (fun x => (hop parcel1 []).queueOpen x.2 0) = some true ∧
      (let s := hop parcel1 (List.replicate 64 parcel1); (s.parcelSeg parcel1).map (fun x => s.queueOpen x.2 0) = some false) ∧
      (let s := { hop { parcel1 with full := true } [] with now := 400000000 }; ({ parcel1 with full := true } : Parcel).at_ + 4096 ≤ s.clusCyc 0)) ∧
    (let s := hop parcel1 [parcel1]
     ((s.coreOf 0).ctx.map s.running) = some true ∧ s.clusterUp 0 = true ∧ (s.coreOf 0).queue.find? (fun p => laneOfTh p.th == 0) = some parcel1 ∧
       s.slotFor 0 0 = some 0 ∧ (SMap.look s.threads 0).map (fun u => (u.stat, u.msgOvf, u.timer)) = some (.parcel, false, false) ∧
       s.isHeader 0 parcel1.pc = true ∧ teamOfTh parcel1.th ∉ (s.coreOf 0).owed ∧ SMap.look s.warps (slotKey 0 0) = none ∧
       parcel1.regs.length = ((List.range 32).filter (laneBit parcel1.mask)).length) ∧
    (let g := { Grid.single 0 with travel := true, segs := [(1, { segOf 0x200 0x100 with ring := [parcel1] })] }
     let s := { hop parcel1 [] with grids := [(0, g)] }
     (s.coreOf 0).seg = some (0, 1) ∧ (SMap.look g.segs 1).map Seg.ring = some [parcel1] ∧ (s.coreOf 0).queue.length ≤ s.qdepth 0 - s.qdepth 0 / 4) ∧
    (let r : SegReq := ⟨0, some (0, 5), 0, 1, none⟩
     let s := { travels with segreqs := [(3, r)], sbusy := [(skey 0 5, 3)] }
     SMap.look s.segreqs 3 = some r ∧ (SMap.look s.ctxs 0).isSome = true ∧ s.replicasHeld r.ctx = false ∧
       (∀ e ∈ rich.grids, ¬(e.2.ctx = 0 ∧ e.2.num = 0 ∧ e.2.travel = true ∧ e.2.done = false)) ∧
       8 ≤ ({ segOf 0x200 0x100 with cores := [0, 1, 2, 3, 4, 5, 6, 7] } : Seg).cores.length) ∧
    ((SMap.look travels.grids 0).bind (fun g => SMap.look g.segs 1)).isSome = true := by decide +kernel

/-- An image of one entry, loaded as partition 0's resident image; a child record at 0x2000. -/
def image1 : Image :=
  { code := 0, entries := [{ code := 0, warps := 1, cg := 1, nv := 32, ns := 16, scratch := 0, params := 0, travel := false, det := false, segs := [] }]
    consts := [], data := [], cva := 0, dva := 0 }
def forked : State :=
  { paged with fes := [(0, { holder := some 0, resIm := some image1 })], mem := (0x2004, 1) :: tables, forks := [(5, { wk := 0, tok := 6, addr := 0x2000 })]
               sbusy := [(skey 0 6, 5)] }
def record1 : List Byte := [0, 0, 0, 0, 1] ++ List.replicate 59 0
/-- A team of the grid that is not placed, its sibling gone. -/
def unplaced : State :=
  { forked with teams := [(0, { Team.waiting 0 0 with passed := some 0 })], threads := [], groups := [], warps := [], cores := [], now := 84000000 }
def suspended : State := { forked with teams := [(0, { Team.single State.reset 0 with at_ := .suspended })], cores := [], groups := [],
                                       threads := [(0, { Thread.new 0 0 0 .held 0 with inTable := false })] }
theorem witness_TeamEvents :
    ((SMap.look forked.warps 0).map Warp.team = some 0 ∧ forked.gridOfTeam 0 = some (Grid.single 0) ∧ forked.running 0 = true ∧
      forked.virtHeld 0 0x2000 64 = false ∧ ({ forked with mem := [] }).virtHeld 0 0x2000 64 = false ∧ forked.virtHeld 0 (blkField record1 8 8) 0 = false ∧
      ({ forked with mem := [] }).childRead 0 0x2000 64 = none ∧ forked.childRead 0 0x2000 64 = some record1 ∧
      forked.imageOfGrid (Grid.single 0) = some image1 ∧ (image1.entries[blkField record1 0 4]?).isSome = true ∧ childOk record1 = true ∧
      blkField record1 32 8 = 0 ∧ forked.childRead 0 (blkField record1 8 8) 0 = some [] ∧
      forked.launchStatus (childReq (Grid.single 0) image1 0 { wk := 0, tok := 6, addr := 0x2000 } record1 (BitVec.ofNat 64 (slotVa (forked.freeSlot 0)))) true = 0) ∧
    ((unplaced.fe 0).holder = some 0 ∧ unplaced.mayStart 0 = true ∧ unplaced.quiesced 0 = false ∧
      (unplaced.units 0).map (fun u => (u.gk, u.groups, u.whole)) = [(0, [[0]], false)] ∧
      unplaced.planish ((unplaced.partCores 0).filter (fun c => unplaced.fits (Grid.single 0) c)) = some 0 ∧ (Grid.single 0).warps ≤ 64) ∧
    ((SMap.look unplaced.teams 0).map (fun t => (t.at_, t.passed)) = some (.unplaced, some 0) ∧ 0 + 84000000 ≤ unplaced.now) ∧
    (suspended.mayResume 0 = true ∧ suspended.resumeCore 0 = some 0 ∧ suspended.bad = []) ∧
    (let g := { Grid.single 0 with nteam := 2, teamsLeft := 2 }
     let s := { forked with grids := [(0, g)], teams := [(0, { Team.single State.reset 0 with at_ := .retiring })], threads := [], groups := [] }
     s.gridOfTeam 0 = some g ∧ 1 < g.teamsLeft ∧ g.bmap = none) ∧
    (let s := { forked with teams := [(0, { Team.single State.reset 0 with children := 1 })], groups := [],
                            threads := [(0, Thread.new 0 0 0 .exited 0)], forks := [], sbusy := [] }
     s.teamOver 0 = true ∧ (SMap.look s.teams 0).map Team.children = some 1) := by decide +kernel

/-- Matrix operations begun, at their first pass: of binary32 over two K-blocks, and of int8 over one (R175). -/
def twoBlocks : List Byte := [3, 3, 0, 0, 16, 0, 16, 32, 40, 48, 255, 255, 1, 0, 0, 0] ++ List.replicate 48 0
def oneBlock : List Byte := [0, 0, 2, 0, 64, 0, 16, 32, 40, 48, 255, 255, 1, 0, 0, 0] ++ List.replicate 48 0
def engOp (kind : Nat) (blk : List Byte) : EngOp :=
  { wk := 0, th := 0, core := 0, ctx := 0, kind := kind, tok := 5, seq := 1, pc := 8, blk := blk, bound := {}, exts := [], port := 0, begun := true,
    tile := 0, kblk := 0, acc := List.replicate 256 0, count := 0, sus := false, viol := false, trap := 0, issued := 0, walked := false, cover := [] }
def withEng (o : EngOp) : State := { rich with eng := [(9, o)], sbusy := [(skey 0 5, 9)] }
/-- Its element sums raise no suspicion. -/
def calm (blk : List Byte) : Bool :=
  match mmaPar 255 blk with
  | some p => (List.range 256).all (fun e => !((withEng (engOp 2 blk)).mmaStep 0 p ((p.origin 0).1 + e / 16) ((p.origin 0).2 + e % 16) 0 0 none).2)
  | none => false
theorem witness_EngineEvents_matrix :
    ((mmaPar 255 twoBlocks).map (fun p => (p.tri, p.tiles, p.blocks)) = some (false, 1, 2) ∧
      (mmaPar 255 oneBlock).map (fun p => (p.tri, p.tiles, p.blocks, p.be)) = some (false, 1, 1, false) ∧
      (withEng (engOp 2 oneBlock)).gridOfTeam 0 = some (Grid.single 0) ∧ (Grid.single 0).nv = 255) ∧
    calm oneBlock = true ∧ calm twoBlocks = true := by decide +kernel
/-- A descriptor of 64 elements; and the blocks of one that converts nothing, to the scratchpad. -/
def copyBlock2 : List Byte :=
  leBytes 8 0x2000 ++ leBytes 8 0x4000 ++ leBytes 8 0 ++ leBytes 8 (1 + 16 * 3 + 4096 * 3) ++ leBytes 3 64 ++ leBytes 6 4 ++ List.replicate 87 0
def plainCopy (b : List Byte) : Option Nat :=
  (descOf 4 0 b).bind (fun c => if c.sf = c.df ∧ c.scl = 0 ∧ c.chk = false ∧ c.panel = false ∧
    (withEng (engOp 4 b)).compactAt (engOp 4 b) c = (.scr 0, 0x4000) then some c.blocks else none)
theorem witness_EngineEvents :
    plainCopy copyBlock = some 1 ∧ plainCopy copyBlock2 = some 2 ∧
    (let s := withEng (engOp 4 copyBlock); s.thRuns 0 = true ∧ s.engStopped 0 = false ∧ s.bad = []) ∧
    (let o := { engOp 8 copyBlock with walked := true, port := 3 }
     SMap.look (withEng o).eng 9 = some o ∧ (withEng o).eng.filter (fun e => e.2.kind == 8 && e.2.port % 16 == 3) = [(9, o)]) := by decide +kernel

/-- Two contexts with work, the first at the end of its slice; the save area mapped. -/
def shared : State :=
  { paged with ctxs := [(0, { root := 0x100000 }), (1, {})], grids := paged.grids ++ [(1, { Grid.single 0 with ctx := 1 })], now := 1000000000000 }
def saveMapped : Memory := tables.take 3 ++ [(0x100FF0, 0x01), (0x100FF1, 0x10), (0x100FF2, 0x10), (0x101000, 0x0F)]
def hung (m : Memory) : State :=
  { paged with csr := [(0x1000, 0x10000), (0x1001, 1), (0x3010, 0x30)], mem := m, ctxs := [(0, { root := 0x100000, stall := 0x10000 })] }
/-- Its team halted, with nothing saved. -/
def halted : State :=
  { paged with teams := [(0, { Team.single State.reset 0 with at_ := .halted })], groups := [], cores := [],
               threads := [(0, { Thread.new 0 0 0 .held 0 with inTable := false })] }
/-- Its record in the save area, with an uncorrectable sector in it. -/
def badSave : State :=
  { halted with mem := saveMapped, bad := [(0x1001000 / 32, ())],
                ctxs := [(0, { root := 0x100000, recs := [{ off := 0x1001000, len := 0x1000, grid := 0, team := 0, kind := 1 }] })] }
theorem witness_SwitchEvents :
    ((shared.fe 0).holder = some 0 ∧ shared.mustYield 0 0 = true ∧ shared.quiesced 0 = false ∧
      (SMap.look shared.ctxs 0).map (fun c => (c.drainAt, c.halting)) = some (none, none)) ∧
    (let s := { rich with ctxs := [(0, { halting := some 2 })] }; s.haltReady 0 = true ∧ (SMap.look s.ctxs 0).map Ctx.fault = some none) ∧
    ((hung tables).hangEn = true ∧ 2 ^ (hung tables).hangExp ≤ 0x10000 ∧ (hung tables).running 0 = true) ∧
    ((hung tables).free.2.writeVirt 0 (saveBase + 0x1000) ((hung tables).waitGraph 0)).2 = false ∧
    ((hung saveMapped).free.2.writeVirt 0 (saveBase + 0x1000) ((hung saveMapped).waitGraph 0)).2 = true ∧
    ((halted.fe 0).holder = some 0 ∧ halted.mayStart 0 = true ∧ halted.quiesced 0 = false ∧ halted.saved = [] ∧ halted.teamsAt 0 .halted = [0] ∧
      halted.gridOfTeam 0 = some (Grid.single 0) ∧ halted.bad = [] ∧ badSave.recBad 0 (Grid.single 0) 0 = true ∧ badSave.mayStart 0 = true ∧
      badSave.teamsAt 0 .halted = [0] ∧ (SMap.look badSave.ctxs 0).map (fun c => (c.fault, c.halting)) = some (none, none) ∧
      halted.planish ((halted.partCores 0).filter (fun c => halted.fits (Grid.single 0) c && halted.receivesFit 0 c && halted.tablesFit [0] (c / 4))) = some 0) := by decide +kernel

/-- Its halt under way with its team resident and nothing outstanding, the save area mapped by `m`. -/
def yielding (m : Memory) : State :=
  { paged with mem := m, ctxs := [(0, { root := 0x100000, halting := some 2, haltAt := some 84000000 })] }
def haltedAll (s : State) : State := (s.recordOrder (s.teamsAt 0 .placed)).foldl (fun s tk => s.haltTeam tk) s
theorem witness_SwitchCompletions :
    ((shared.fe 0).holder = some 0 ∧ shared.mustYield 0 0 = true ∧ shared.quiesced 0 = false ∧
      (SMap.look shared.ctxs 0).map (fun c => (c.drainAt, c.halting)) = some (none, none)) ∧
    (let s := { paged with ctxs := [(0, { drainAt := some 5 })], now := 5 }
     (SMap.look s.ctxs 0).map (fun c => (c.drainAt, c.halting)) = some (some 5, none) ∧ 5 ≤ s.now ∧ (SMap.look s.warps 0).isSome = true ∧
       (s.gridOfTeam 0).map Grid.ctx = some 0) ∧
    ([tables, saveMapped].map (fun m =>
      let s := yielding m
      let s1 := haltedAll s
      ((SMap.look s.ctxs 0).map (fun c => (c.halting, c.haltAt, c.fault)) == some (some 2, some 84000000, none) && decide (s.now ≤ 84000000) &&
        s.haltReady 0 && (s.teamsAt 0 .placed == [0]) && (s1.grids.filter (fun e => e.2.ctx == 0 && e.2.travel && !e.2.done)).isEmpty,
       s1.rangeMapped 0 saveBase 4096 true)) = [(true, false), (true, true)]) ∧
    ((haltedAll (yielding saveMapped)).writeRecs 0 1 [0]).2 = true ∧
    (let s := { yielding saveMapped with now := 84000000 }; (SMap.look s.ctxs 0).map Ctx.haltAt = some (some 84000000) ∧ 84000000 ≤ s.now) ∧
    ((hung saveMapped).hangEn = true ∧ 2 ^ (hung saveMapped).hangExp ≤ 0x10000 ∧ (hung saveMapped).running 0 = true ∧
      ((hung saveMapped).free.2.writeVirt 0 (saveBase + 0x1000) ((hung saveMapped).waitGraph 0)).2 = true) ∧
    ((halted.fe 0).holder = some 0 ∧ halted.mayStart 0 = true ∧ halted.quiesced 0 = false ∧ halted.saved = [] ∧ halted.bad = [] ∧
      halted.teamsAt 0 .halted = [0] ∧ (SMap.look halted.teams 0).map Team.at_ = some .halted ∧ halted.gridOfTeam 0 = some (Grid.single 0) ∧
      (Grid.single 0).travel = false ∧ (Grid.single 0).cg ≤ 1 ∧
      halted.planish ((halted.partCores 0).filter (fun c => halted.fits (Grid.single 0) c && halted.receivesFit 0 c && halted.tablesFit [0] (c / 4))) = some 0) := by
  decide +kernel

/-- A graph image at 0x2000 of host memory: one node, one kernel image of one entry whose digest was computed with another program (R25, R321). -/
def graphHost : Memory :=
  [(8192, 0x47), (8193, 0x52), (8194, 0x41), (8195, 0x46), (8196, 0x1), (8206, 0x1), (8208, 0x40), (8216, 0x40), (8224, 0x40), (8232, 0x70),
   (8264, 0x1), (8268, 0xff), (8269, 0xff), (8304, 0x90), (8305, 0x20), (8312, 0x80), (8336, 0x56), (8337, 0x5a), (8338, 0x34), (8339, 0x30),
   (8340, 0x1), (8342, 0x40), (8344, 0x40), (8360, 0x40), (8368, 0x40), (8376, 0x40), (8380, 0x1), (8384, 0x40), (8392, 0x47), (8393, 0x9d),
   (8394, 0x65), (8395, 0x92), (8396, 0x95), (8397, 0xd0), (8398, 0x87), (8399, 0xf3), (8408, 0x1), (8409, 0x1), (8410, 0x20), (8411, 0x10)]
/-- That graph loaded as number 5, in graph mode, with a trigger of it queued. -/
def node1 : GNode :=
  { image := 0, qdepth := 0, lslots := 0, entry := 0, teams := 1, ranges := none, cor := false, arep := false, bmap := none, quiet := false,
    param := 0, succs := [] }
def graph1 : Graph := { nodes := [node1], ranges := [], images := [image1] }
def trig1 : Trig := { ctx := 0, graph := 5, patch := 0, seq := 0 }
def graphMode : State :=
  { paged with csr := [(0x1000, 0x10000), (0x1001, 1), (0x1020, 0x0A01)], graphs := [(5, graph1)], fes := [(0, { holder := some 0, queue := [trig1] })] }
def run1 : Run := { trig := trig1, graph := graph1, nodes := [.waiting], slots := [0] }
/-- A command on graph 5 under way. -/
def commanded (u : Bool) (a : W64) : State := { paged with fes := [(0, { holder := some 0, gcmd := some ⟨5, u, a⟩ })], host := graphHost }
/-- The status reading a graph ends with: 0 for one accepted. -/
def graphStatus (s : State) (a : Nat) : Nat := match s.readGraph a with | .ok _ => 0 | .error e => e
theorem witness_FrontEndEvents :
    (paged.inService = true ∧ paged.served 0 0 = true ∧ paged.feModeBad 0 0x0A00 = false ∧ paged.feModeBad 0 3 = true ∧
      paged.feMode 0 ≠ 2 ∧ paged.live 3 = false ∧ paged.live 0 = true ∧ (paged.fe 0).gcmd = none ∧ paged.ringBlocked 0 = false ∧
      graphMode.inService = true ∧ graphMode.served 0 0 = true ∧ graphMode.feMode 0 = 1 ∧ (SMap.look graphMode.graphs 5).isSome = true ∧
      (graphMode.fe 0).queue.length < 64) ∧
    (((commanded true 0).fe 0).queue.any (fun t => t.graph == 5) = false ∧ graphStatus (commanded false 0x2000) 0x2000 = 0 ∧
      graphStatus (commanded false 0x3000) 0x3000 = 4) ∧
    ((graphMode.fe 0).queue.find? (fun t => t.ctx == 0) = some trig1 ∧ SMap.look graphMode.runs 0 = none ∧ graphMode.mayStart 0 = true ∧
      graphMode.ringBlocked 0 = false ∧ graphMode.quiesced 0 = false ∧
      allSome (graph1.nodes.map (fun n => graphMode.readVirt 0 n.param.toNat (graph1.paramSize n))) = some [[]] ∧
      graph1.used.all (graphMode.sectionsMapped 0) = true ∧ SMap.look { graphMode with graphs := [] }.graphs 5 = none) ∧
    (let s := { graphMode with runs := [(0, run1)] }
     (List.range 1).find? (fun i => run1.nodeAt i == .waiting && (predsOf graph1.nodes i).all (s.predReady run1)) = some 0 ∧
       s.launchStatus (nodeReq 0 0 run1 node1 image1) true = 0) := by decide +kernel

theorem witness_HostAccessEvents :
    (paged.inService = true ∧ paged.served 0 0 = true ∧ (paged.ring 0).held = [] ∧ (paged.ring 0).lost = [] ∧
      (paged.mbox 0 0).inFull = false ∧ (resident.mbox 0 7).inFull = true ∧ resident.inService = true ∧ resident.served 0 0 = true ∧
      (SMap.look paged.ctxs (8 * 0 + 0)).isSome = true) ∧
    (let s := { paged with rings := [(3, { ctl := 0x1000100106, firstAt := some 0, since := 2 })], now := 84000000 }
     (s.ring 3).firstAt = some 0 ∧ (s.ring 3).ctime ≠ 0 ∧ 0 + 84000 * (s.ring 3).ctime ≤ s.now) ∧ paged.off = false := by decide

def spdmAt (p ses : Nat) : State := { paged with spdm := { phase := p, session := ses } }
def tdiAt (n : Nat) (sec : Bool) : State := { paged with fes := [(0, { holder := some 0, tdi := n, secure := sec })] }
theorem witness_SecurityEvents :
    ((spdmAt 0 0).off = false ∧ (spdmAt 3 2).spdm.phase = 3 ∧ ((spdmAt 3 2).measurement 1).isSome = true ∧ ((spdmAt 3 2).measurement 0x1F).isSome = true) ∧
    ([(0, false), (1, true), (2, true), (3, false)].all (fun x => ((tdiAt x.1 x.2).fe 0).vf && ((tdiAt x.1 x.2).fe 0).tdi == x.1) = true) ∧
    (tdiAt 0 false).mg.cause = 0 ∧ (tdiAt 0 false).rsz = none := by decide

/-- Port 2 of partition 0, in a mode and up, with a queue pair 7 and a key 0x99 of its context. -/
def pair7 : Qp :=
  { ctx := 0, flags := 7, mtu := 1024, dest := 1, sendPsn := 0, recvPsn := 0, gid := [], mac := [], udp := 4791, tclass := 0, hop := 64, retry := 7,
    ack := 14, ring := 0x4000, entries := 16, count := 0x3000, arrived := 0 }
def netUp (mode : Nat) : State :=
  { paged with csr := [(0x1000, 0x10000), (0x1001, 1), (0x1003, 4)], ports := [(2, { mode := mode, link := 2 })], qps := [(8199, pair7)],
               rkeys := [(0x99, { ctx := 0, read := true, write := true, va := 0x5000, len := 0x100 })] }
theorem witness_PortEvents :
    (paged.off = false ∧ ((netUp 2).port 2).link = 2 ∧ field 0x12 0 2 = ((netUp 2).port 2).mode ∧ field 0x11 0 2 ≠ ((netUp 2).port 2).mode) ∧
    ((netUp 2).physRange 0 true 0x5000 2 = some [0x5000, 0x5001] ∧ ((netUp 2).port 2).mode = 2 ∧ (netUp 2).live 0 = true ∧
      (netUp 2).partPorts 0 / 2 ^ 2 % 2 = 1) ∧
    ((netUp 1).qpUp 2 7 = some pair7 ∧ (netUp 1).keyFor pair7 0x99 0x5000 2 true = true ∧ (netUp 1).keyFor pair7 0x99 0x5000 2 false = true ∧
      (netUp 1).readVirt 0 0x5000 2 = some [0, 0] ∧ (netUp 1).keyFor pair7 0x98 0x5000 2 false = false ∧
      (netUp 1).keyFor pair7 0x99 0x50FF 2 true = false ∧ (netUp 1).qpUp 2 8 = none ∧ (netUp 1).readVirt 0 0x3000 8 = some (List.replicate 8 0) ∧
      ((netUp 1).physRange 0 true 0x4000 2 = some [0x4000, 0x4001]) ∧ ((netUp 1).physRange 0 true (0x4000 + 1024) 16).isSome = true) ∧
    (let q := { pair7 with arrived := 16 }; (q.arrived + 2 ^ 64 - 0) % 2 ^ 64 = q.entries) := by decide +kernel

/-- The management mailbox with some bytes in its data, and with a staged image of two bytes. -/
def mailed (b : List Byte) : State := { paged with mg := { data := b ++ List.replicate (3840 - b.length) 0 } }
def staged (n : Nat) (commit : Bool) : State := { paged with mg := { staging := some (n, [1, 2]), commit := commit } }
/-- A queue pair 7 of port 2 for context 0, and a key for it (R336). -/
def pairBlock : List Byte :=
  [7, 0, 2, 0, 0, 7, 0, 4, 1, 0, 0, 0] ++ List.replicate 32 0 ++ [0, 64, 7, 14] ++ leBytes 8 0x4000 ++ leBytes 4 16 ++ leBytes 4 0 ++ leBytes 8 0x3000
def keyBlock : List Byte := [0x99, 0, 0, 0, 0, 0, 3, 0] ++ leBytes 8 0x5000 ++ leBytes 8 0x100
def noFindings : AssayArg := { fail := none, dead := [], phases := [], bumps := [], vmin := [], bad := [], log := [] }
theorem witness_ManagementEvents :
    (paged.mg.commit = false ∧ paged.off = false ∧ paged.mg.log.length = 0 ∧ (staged 4 false).mg.staging = some (4, [1, 2]) ∧
      (staged 2 false).mg.staging = some (2, [1, 2]) ∧ paged.mg.staging = none ∧ paged.mg.cause = 0 ∧
      ({ paged with mg := { cause := 3 } }).mg.cause ≠ 0) ∧
    ((qpOf ((mailed pairBlock).mg.data.take 128)).map Prod.fst = some 8199 ∧ ((netUp 1).port (8199 / 4096)).mode = 1 ∧ (netUp 1).live 0 = true ∧
      (SMap.look (netUp 1).qps (4096 * (0x20007 / 2 ^ 16) + 0x20007 % 4096)).isSome = true ∧ (SMap.look (netUp 1).rkeys 0x99).isSome = true) ∧
    (let b := (mailed keyBlock).mg.data.take 32
     (blkByte b 4, blkByte b 5, blkByte b 6, blkByte b 7, zerosAt b 24 8, blkField b 8 8 + blkField b 16 8) = (0, 0, 3, 0, true, 0x5100)) ∧
    (staged 2 true).mg.commit = true ∧ ({ paged with off := true }).off = true ∧
    ({ paged with mg := { stored := { good := false } } }).mg.stored.good = false ∧ paged.mg.stored.good = true ∧
    ({ paged with mg := { cause := 2 } }).mg.cause ≠ 0 ∧ ({ paged with mg := { cause := 2 } }).off = false := by decide +kernel

/-- Physical cluster 0 changed, which serves index 0 of partition 0. -/
def clus0 (p : Phys) : State := { paged with phys := [(0, p)] }
theorem witness_PowerEvents :
    ([paged, clus0 { hold := 1 }, clus0 { hold := 1, cool := 100 }, clus0 { hold := 2, cool := 100 }, clus0 { failed := 2, phase := 13 },
      clus0 { vset := 69 }].all (fun s => (s.physAt 0).on) = true ∧ (paged.physAt 0).failed.testBit 0 = false ∧
      (clus0 { failed := 2, phase := 13 }).logOf 0 = 0 ∧ (clus0 { failed := 2, phase := 13 }).physOf 0 = 0) ∧
    ((clus0 { on := false }).wantsPower 0 = true ∧ (clus0 { inrush := 1 }).slowRamp 0 = false ∧
      (clus0 { inrush := 1 }).phys.any (fun e => physSector e.1 == physSector 0 && e.1 != 0 && e.2.inrush == 1) = false ∧
      (clus0 { on := false }).inrushFits 0 = true ∧ ({ clus0 { inrush := 1 } with now := 3360000 }).inrushFits 0 = true ∧
      ({ clus0 { on := false } with csr := [(0x1000, 0x01000000)], clusters := (List.range 256).map (fun c =>
          (c, { grant := 1, proj := [0, 100000] })) }).inrushFits 0 = false) ∧
    (let s := { clus0 { droops := [(3, (0, 1)), (4, (0, 2))] } with now := 840000 }
     (s.physAt 0).on = true ∧ SMap.look (s.physAt 0).droops 3 = some (s.now / 840000 - 1, 1) ∧ SMap.look (s.physAt 0).droops 4 = some (s.now / 840000 - 1, 2) ∧
       SMap.look (s.physAt 0).droops 5 = none ∧ 0 < s.now / 840000) ∧
    (let s := { clus0 { riseAt := some 0, vto := 32 } with now := 2400 }
     (s.physAt (s.physOf 0)).riseAt = some 0 ∧ 0 + 1200 * ((s.physAt (s.physOf 0)).vto - (s.physAt (s.physOf 0)).vset) ≤ s.now) ∧
    (let s := { paged with now := 840000 }; s.interval < s.now / 840000 ∧ s.charged ≤ s.interval ∧ (s.cluster 0).dark = false ∧ 64 ≤ s.permitCap 0) ∧
    (let bs : List Bidder := [⟨0, 3, 0, 0, false, [0, 100, 200, 300], 1⟩, ⟨1, 2, 0, 0, false, [0, 100, 250, 300], 1⟩]
     (bs.map Bidder.c).Nodup ∧ (∀ b ∈ bs, b.l = 1) ∧ (bs.map (fun b => b.amps 1)).sum ≤ 400) := by decide +kernel

/-- A billet call for cluster 3. -/
def call1 : Call := { clus := 3, cause := 1, unit := 0, base := 1, phys := none, begun := false }
/-- Long after reset, no rotation under way, and the rested cluster 262 brought back. -/
def rotated (swap : Bool) : State :=
  { paged with now := 10 ^ 15, swaps := if swap then [(2, 262)] else [], phys := if swap then [(262, { state := 1, on := true })] else [] }
def called (q : Call) (on : Bool) : State := { paged with calls := [q], phys := [(86, { state := 2, on := on })] }
theorem witness_WearEvents_swaps :
    ([false, true].all (fun b => let s := rotated b
      (s.annealCtl 0).getLsbD 0 && s.rsz.isNone && !s.off && s.mg.cause == 0 && (s.restNext 2).isSome) = true) ∧
    ((SMap.look (rotated false).rotAt 2).getD 0 + (rotated false).rotTicks 0 ≤ (rotated false).now ∧ (rotated false).calls = [] ∧
      (rotated true).calls = [] ∧ (let s := { rotated true with calls := [{ call1 with clus := 200 }] }
        s.calls.any (fun q => s.clusSector q.clus == 2) = true ∧ SMap.look s.swaps 2 = some 262) ∧
      (rotated false).resting 2 = some 262 ∧ ((rotated false).physAt 262).restAt + (rotated false).restTicks 0 ≤ (rotated false).now) ∧
    (SMap.look (rotated true).swaps 2 = some 262 ∧ ((rotated true).physAt 262).on = true ∧ ((rotated true).physAt 262).inrush = 0 ∧
      ((rotated true).restNext 2).map (rotated true).swapReady = some true) ∧
    ((called call1 false).calls.any (fun q => q.begun && q.clus / 256 == 0) = false ∧
      (called call1 false).calls.find? (fun q => q.clus / 256 == 0 && (q.cause == 2 || (called call1 false).rsz.isNone)) = some call1 ∧
      (called call1 false).nextBillet 0 = some 86 ∧
      ({ called call1 false with phys := [86, 174, 260, 261].map (fun k => (k, ({ state := 3, on := false } : Phys))) }).nextBillet 0 = none) ∧
    (let q := { call1 with begun := true, phys := some 86 }
     (called q true).calls.find? (fun q => q.begun && q.clus / 256 == 0) = some q ∧ ((called q true).physAt 86).on = true ∧
       ((called q true).physAt 86).inrush = 0 ∧ (called q true).swapReady 3 = true) ∧
    (called { call1 with begun := true } true).swapReady 3 = true := by decide +kernel
def meas1 : WearMeas := { unit := 1, mv := 700, temp := 6000, act := 512, mhz := 900, amps := 1024, up := 0, mv10 := 700, mhz10 := 900, amps10 := 1024 }
theorem witness_WearEvents :
    (let s := { paged with now := 84000000 }
     s.wearMs < s.now / 84000000 ∧ unitOk 1 = true ∧ s.accrues 1 = true) ∧
    (let s := { paged with now := 84000000000 * 3600 }
     s.jsec < s.powSec ∧ s.jhour < s.powSec / 3600 ∧ s.interval < s.now / 840000 ∧ s.refillDue 0 = true ∧ s.off = false ∧ s.hm.busy = false ∧
       SMap.sorted s.marks = true ∧ SMap.sorted s.jmarks = true) ∧
    (let s := { paged with now := 84000000, marks := [(1, { bti := 7 })], retired := [(0x4000, ())] }
     SMap.look s.marks 1 = some { bti := 7 } ∧ s.unitState 1 = 0 ∧ s.accrues 0x4001 = true ∧ s.accrues 0x4000 = false ∧ s.unitState 0x4000 = 3 ∧
       ([meas1].map WearMeas.unit).Nodup) ∧
    ([0, 1].map (fun n => ({ paged with hm := { busy := true, owed := n } }).hm.busy) = [true, true]) ∧
    (paged.scrubEn = true ∧ SMap.look paged.bad (3 * 2 ^ 29 + (paged.scrubOf 3).pos) = none ∧ (paged.scrubOf 3).pos + 1 ≠ groupSectors) ∧
    (let s := { paged with scrubs := [(3, { pos := 5, start := 0, limit := 10, take := false, held := some (3 * 2 ^ 29 + 4, [1, 2]) })], now := 11 }
     (SMap.look s.scrubs 3).isSome = true ∧ (s.scrubOf 3).start + (s.scrubOf 3).limit < s.now ∧
       (s.scrubOf 3).held = some (3 * 2 ^ 29 + 4, [1, 2])) := by decide +kernel

/-- An empty machine in service, without contexts. -/
def idle : State := State.reset
def partOk (s : State) (p r : Nat) (v : W64) : Bool :=
  let s1 := s.csrSet (0x1000 + 0x100 * p + r) (s.partValue p r v)
  !partReserved r v && !(List.range 8).any (fun n => s.live (8 * p + n)) && s.feMode p == 0 && s.rsz.isNone && (s.fe p).tdi == 0
    && rangeOk (s1.partBase p) (s1.partLimit p) && s1.partSound p && s1.sharingOk && !s1.gainsHeld s p
/-- A descriptor in host memory: partition 0 becomes the clusters from 0 to 8, channel group 0 and colour 0 (R347). -/
def resizeHost : Memory := [(0x4000, 1), (0x4026, 8), (0x4028, 1), (0x4030, 1)]
def ent1 : REnt := { part := 0, diss := false, keep := false, ports := 0, base := 0, limit := 8, chan := 1, colour := 1 }
def resizing (state : Nat) (dl : Nat) : Resize :=
  { part := 0, state := state, addr := 0x4000, host := true, ctx := 0, level := 2, ents := if state = 1 then [] else [ent1], dl := dl, tag := 0, at_ := 0,
    since := 0, moved := [], invs := 0, colours := state == 4 }
def atState (state : Nat) : State := { idle with rsz := some (resizing state 2000), host := resizeHost }
def inv1 : Memory := [(0x800, 0), (0x802, 1)].filter (fun e => e.2 != 0)
theorem witness_PartitionEvents :
    (idle.inService = true ∧ partOk idle 0 1 1 = true ∧ partOk idle 0 0 0x00080000 = false ∧
      partOk { idle with csr := [(0x1001, 1)] } 0 1 0 = true ∧ partOk idle 3 2 0xFF = true) ∧
    ((atState 1).readDesc (resizing 1 2000)).bind descEntries = some ([ent1], 2000, 0) ∧
    (({ atState 1 with host := [] }).readDesc (resizing 1 2000)).bind descEntries = none ∧
    ((atState 1).resizeInvalid 0 [ent1] = false ∧ (atState 1).resizeInvalid 1 [ent1] = true ∧
      (atState 1).resizePrivilege (resizing 1 2000) [ent1] = false ∧ (atState 1).resizeLimits [ent1] = none ∧ (atState 1).resizeMemory [ent1] = false) ∧
    ((atState 2).resizeBlock (resizing 2 2000) = none ∧
      (let s := { paged with rsz := some (resizing 2 2000), now := 10 ^ 12, ctxs := [(0, { halting := some 2 })] }
       s.resizeBlock (resizing 2 2000) = some (6, 0, 0))) ∧
    (([ent1].map REnt.part).Nodup ∧ (resizing 4 0).colours = true ∧ (resizing 5 0).colours = false ∧ (resizing 6 0).invs ≤ (atState 6).invDone ∧
      (atState 6).staleDrained (fun ck _ => [ent1].any (fun x => x.part == ck / 8)) = true) ∧
    (let s := { idle with invQ := [⟨0x800, true, 0⟩], host := inv1 }
     s.invRun = none ∧ s.ringBlocked 16 = false ∧ s.ringBlocked 0 = false ∧ ((s.dmaRead 0x800 32).map invOk) = some true ∧
       ((({ s with host := [] }).dmaRead 0x800 32).map invOk) = some false ∧
       (let r : InvRun := { fe := 0, ctx := 0, kind := 1, start := 0, len := 0, tag := 0, cores := 0 }; paged.staleDrained r.hits = true)) ∧
    (let g := { Grid.single 0 with ranges := [{ va := 0, len := 0x1000, acc := 0, reuse := 0, stack := false }] }
     let c : HintCnt := { misses := 40000, dies := [65536, 0, 0, 0] }
     let s := { idle with grids := [(0, g)], hintCnt := [(0, c)], now := 840000000 }
     SMap.look s.grids 0 = some g ∧ g.ranges[0]? = some { va := 0, len := 0x1000, acc := 0, reuse := 0, stack := false } ∧ g.done = false ∧
       SMap.look s.hinted 0 = none ∧ SMap.look s.hintCnt 0 = some c ∧ s.hintWin < s.hintNow ∧ 65536 ≤ c.lookups ∧ c.lookups ≤ 2 * c.misses ∧
       8 * c.misses ≤ 8 * 65536 ∧ 3 * ({ dies := [0, 0, 0, 65536] } : HintCnt).lookups < 4 * 65536) ∧
    (let s := { idle with csr := [(0x1002, 1), (0x1102, 1)], quota := [(0, 8), (1, 8)], now := 84000000 }
     s.sharers 0 = [0, 1] ∧ 2 < SMap.read 0 s.quota 1 ∧ SMap.read 0 s.movedAt 0 < s.wall / 1000000) ∧
    (let s := { atState 1 with gens := [(0, 15)] }
     s.gainsBack [ent1] = true ∧ (atState 1).gainsBack [ent1] = false ∧ (resizing 1 2000).tenant = false ∧ (resizing 1 2000).host = true) := by
  decide +kernel

/-! Further witnesses, for clauses that the ones above do not reach. -/

/-- A lane parked outside the parameter window, a receive list without the message's, and a sleeper that owes nothing. -/
theorem witness_CoreEvents_more :
    (inParamWindow 0x2000 = false ∧ (parked.coreOf (parked.coreOfTh 0)).exts.length < 64 ∧ parkEntry.kind = 1 ∧ parkEntry.hold = none ∧
      parked.missWaits 0 0 = false) ∧
    (let e := { parkEntry with hold := some 0x2000 }
     let s := { parked with warps := [(0, { Warp.fresh 0 0 with rq := [e] })], mem := [(0x100000, 0x10)] }
     (s.rqOf 0)[0]? = some e ∧ e.hold ≠ none ∧ s.missWaits 0 0 = false ∧ s.parkedWith 0 e = [0] ∧ s.walk 0 0x2000 = .hold ∧
       ((List.range 32).filter (laneBit e.mask)).findSome? (s.laneMiss 0 0 e) = some 0x2000) ∧
    (let s := { received with cores := [] }
     (s.coreOf 0).posted.find? (fun r => r.team == 0 && note.msg.fits r.src r.tag r.anySrc r.anyTag) = none ∧
       (SMap.look s.teams 0).map (fun t => t.ovf.length) = some 0) ∧
    ({ dozing with teams := [(0, { Team.single State.reset 0 with cyc := 100, run := true })] }).owes 1 = false := by decide +kernel

/-- The hop while its target's cluster leaves the partition (R295, R348). -/
def hopMoving : State :=
  { hop parcel1 [] with csr := [(0x1000, 0x10000), (0x1001, 1)]
                        rsz := some { part := 0, state := 3, addr := 0x4000, host := true, ctx := 0, level := 2,
                                      ents := [{ part := 0, diss := false, keep := false, ports := 0, base := 8, limit := 16, chan := 1, colour := 1 }],
                                      dl := 2000, tag := 0, at_ := 0, since := 0, moved := [], invs := 0, colours := false } }
theorem witness_TravelEvents_more :
    hopMoving.segMoving 0 = true ∧ (hop parcel1 []).segMoving 0 = false ∧ hopMoving.replicasHeld 0 = true ∧
    (let s := { travels with now := 84000000 }
     ((SMap.look s.grids 0).bind (fun g => SMap.look g.segs 1)).map (fun sg => (sg.cores, sg.hotAt, sg.qfull, sg.spills)) = some ([0], 0, 0, 0) ∧
       s.now - s.resetAt = 84000000) ∧
    (let g := { Grid.single 0 with travel := true, segs := [(1, { segOf 0x200 0x100 with cores := [0, 1, 2, 3, 4, 5, 6, 7] })] }
     (SMap.find (fun _ g => g.ctx == 0 && g.num == 0 && g.travel && !g.done && g.segs.all (fun e => !e.2.cores.isEmpty)) [(0, g)]).isSome = true) := by
  decide +kernel

/-- A word of the deque taken, and none, while an older load of the context is under way; and with none. -/
theorem witness_QueueForms_acquire :
    (let s := { dequed with ops := [(0, op1 .load acc1)], nid := 20 }
     readyIn s (.dqpop ⟨.always, 2, 0, 0, 0, .b32, 0⟩) = true ∧ s.wideBusy s.nid 0 = true ∧ (s.coreOf 0).deque.getLast?.getD 0 ≠ 0 ∧
       (s.coreOf 1).deque.getLast?.getD 0 = 0) ∧
    dequed.wideBusy dequed.nid 0 = false := by decide +kernel

/-- An engine with a rise notice 100 master cycles old, and one idle without (R372). -/
theorem witness_EngineEvents_notice :
    (let s := { withEng (engOp 2 twoBlocks) with now := 75 * 400, clusters := [(0, { passAt := some 0, notice := some (75 * 300) })] }
     (s.cluster 0).passAt = some 0 ∧ 0 + 75 * 256 ≤ s.now ∧ (s.cluster 0).notice = some (75 * 300) ∧ 75 * 300 + 75 * 64 ≤ s.now ∧
       s.now ≤ 75 * 300 + 75 * 1024) ∧
    ((withEng (engOp 2 twoBlocks)).cluster 0).passAt = none ∧ ((withEng (engOp 2 twoBlocks)).cluster 0).notice = none := by decide +kernel

/-- An offer of what the module supports and one without a hash, and an interface in ERROR whose VF is gone. -/
theorem witness_SecurityEvents_more :
    (let named : List SpdmAlg := [.rsassaPss3072, .sha256, .ffdhe3072, .aes256gcm]
     (SpdmAlg.rsassaPss3072 ∈ named ∧ SpdmAlg.sha256 ∈ named ∧ SpdmAlg.ffdhe3072 ∈ named ∧ SpdmAlg.aes256gcm ∈ named) ∧
       SpdmAlg.sha256 ∉ ([.rsassaPss3072, .other] : List SpdmAlg)) ∧
    (let s := { paged with fes := [(0, { holder := some 0, tdi := 3, vf := false })] }; (s.fe 0).vf = false ∧ (s.fe 0).tdi = 3) ∧
    (spdmAt 3 1).spdm.session = 1 ∧ (spdmAt 3 2).spdm.session = 2 ∧ (tdiAt 0 false).off = false := by decide +kernel

/-- The network's port with its second gigabyte on HOLD (R336, R354). -/
def netHeld : State := { netUp 1 with mem := tables ++ [(0x101008, 0x10)] }
theorem witness_PortEvents_more :
    (netHeld.virtHeld 0 0x5000 2 = false ∧ netHeld.virtHeld 0 0x40000000 2 = true ∧
      (let s := { netHeld with rkeys := [(0x99, { ctx := 0, read := true, write := true, va := 0x40000000, len := 0x100 })] }
       s.keyFor pair7 0x99 0x40000000 2 true = true ∧ s.keyFor pair7 0x99 0x40000000 2 false = true)) ∧
    (let q := { pair7 with ring := 0x40004000 }
     let s := { netHeld with qps := [(8199, q)] }
     s.qpUp 2 7 = some q ∧ s.virtHeld 0 q.count 8 = false ∧ s.readVirt 0 q.count 8 = some (List.replicate 8 0) ∧
       s.virtHeld 0 (q.ring + (q.mtu + 64) * (q.arrived % q.entries)) 4 = true) ∧
    pair7.mtu < (List.replicate 1025 (0 : Byte)).length ∧ (netUp 1).virtHeld 0 0x3000 8 = false ∧
    ((netUp 2).physRange 0 true 0x5000 2).map (fun ps => decide ps.Nodup) = some true := by decide +kernel

/-- A queue pair with a request of its own waiting (R336, R357). -/
theorem witness_ManagementEvents_more :
    (let s := { netUp 1 with roce := [⟨2, 7, 2, 0x99, 0x40000000, [], 2⟩] }
     s.roce.map (fun x => 4096 * x.port + x.qp) = [8199] ∧ 4096 * (0x20007 / 2 ^ 16) + 0x20007 % 4096 = 8199 ∧ 0x20007 / 2 ^ 12 % 16 = 0) ∧
    (staged 2 false).mg.staging.map (fun x => x.2.length) = some 2 := by decide +kernel

/-- A resize whose rings have room, and one whose front end's ring holds 1,024 records (R325). -/
theorem witness_PartitionEvents_rings :
    ((atState 1).ringBlocked 0 = false ∧ (atState 1).ringBlocked 16 = false) ∧
    ({ atState 1 with rings := [(0, { held := List.replicate 1024 [] })] }).ringBlocked 0 = true ∧
    ({ atState 1 with rsz := some (resizing 1 2000) }).rsz = some (resizing 1 2000) := by decide +kernel

theorem witness_EncodeThenDecode_DecodeThenEncode :
    (forms vectorWords).all (fun i => i.wf && i.op.isSome) = true ∧ (decodeWord 0x4000203040010000).toOption.isSome = true := by decide
/-- The outcome of a step is a next state. -/
def answers (o : Host.Outcome State Fault Refusal) : Bool := match o with | .next _ => true | _ => false
theorem witness_MemoryStaysCanonical : Memory.wf State.reset.mem = true ∧ Memory.wf paged.mem = true ∧
    answers (step (State.reset.withFetchWord 64 0x59001003FC000005)) = true := by decide +kernel
/-- A turn of the group, at a word that decodes, at one that does not, and an event's. -/
def turned (w : W64) (a : Act) : State := { rich with agenda := [⟨5, [], [], a⟩], codes := [(0, { base := 0, words := [oneWordHeader, w] })] }
theorem witness_StepRunsDecoded :
    ([0x59001003FC000005, 0xFF00000000000000].all (fun w =>
      let s := turned w (.issue 1)
      let s1 := ({ s with agenda := [] }).pass ⟨5, [], [], .issue 1⟩
      s1.mayIssue 1 && s1.groups == [(1, grp)] && s1.gridOfTeam 0 == some (Grid.single 0) && s1.codeWord 0 grp.pc == some w) = true) ∧
    (decodeWord 0x59001003FC000005).toOption.isSome = true ∧ (decodeWord 0xFF00000000000000).toOption.isSome = false ∧
    (Instr.evRingInterruptTimer 3).op = none ∧ (turned 0 (.event (.evRingInterruptTimer 3))).off = false := by decide +kernel

end Sys2Proof.Tests
end

section
/-!
PROOF of O2 (R92): the field forms SBFX and SBFI write their extracted or inserted field, and nothing else.
The control flow is the per-warp law of the register file; what is left is arithmetic on the field's clamped position and length.
-/
namespace Sys2Proof.Machine

/-! Register forms of R91 and R92. -/

/-- Every register field of a format SR word names a scalar register (R39). -/
def namesScalars (f : Sr) : Prop := f.d.toNat < 64 ∧ f.a.toNat < 64 ∧ f.b.toNat < 64 ∧ f.c.toNat < 64

theorem exec_sbfx (f : Sr) (s : State) :
    exec (.sbfx f) s = scalarForm (.sbfx f) f s (fun _ _ a b _ => bfx f.ty.isSigned (tyW f.ty) a b) := rfl

theorem exec_sbfi (f : Sr) (s : State) :
    exec (.sbfi f) s = scalarForm (.sbfi f) f s (fun _ _ a b c => bfi (tyW f.ty) a b c) := rfl

theorem namesScalars_of_wf_sbfx {f : Sr} (h : (Instr.sbfx f).wf = true) : namesScalars f := by
  simp only [Instr.wf, Instr.fieldsOk, Instr.shape, Opnd.ok, List.all_cons, List.all_nil, Bool.and_eq_true, decide_eq_true_eq,
    beq_iff_eq] at h
  obtain ⟨⟨⟨_, hc⟩, ha, hb, _⟩, hd, _⟩ := h
  refine ⟨by omega, by omega, by omega, ?_⟩
  rw [hc]; decide

theorem namesScalars_of_wf_sbfi {f : Sr} (h : (Instr.sbfi f).wf = true) : namesScalars f := by
  simp only [Instr.wf, Instr.shape, Opnd.ok, List.all_cons, List.all_nil, Bool.and_eq_true, decide_eq_true_eq] at h
  obtain ⟨⟨_, ha, hb, hc, _⟩, hd, _⟩ := h
  exact ⟨by omega, by omega, by omega, by omega⟩

/-- A register form whose operation depends on its three sources alone sets D to the extended result (R90). -/
theorem setsScalar_of_scalarForm {i : Instr} {f : Sr} {op : Nat → Nat → Nat → Nat} {val : State → Nat → W64}
    (hx : ∀ s, exec i s = scalarForm i f s (fun _ _ => op)) (hr : i.wf = true → namesScalars f)
    (hop : ∀ s wk, extendTo f.ty (op (s.sop wk f.ty f.a) (s.sop wk f.ty f.b) (s.sop wk f.ty f.c)) = val s wk) :
    SetsScalar i f.g f.d val := by
  refine setsScalar_congr hop (setsScalar_of hx (fun hw => (hr hw).1) ?_)
  intro hw s wk wk' x hne
  obtain ⟨hd, ha, hb, hc⟩ := hr hw
  rw [sop_sset s _ _ x hne hd ha, sop_sset s _ _ x hne hd hb, sop_sset s _ _ x hne hd hc]

/-! A source at its type's width. -/

/-- A w-bit pattern that is the low part of a word extends as the word does (R90). -/
theorem extendTo_low (t : Ty) (x : W64) : extendTo t (x.toNat % 2 ^ tyW t) = extendIn t x := by
  have h := extendTo_wrapTo t (x.toNat : Int)
  rw [BitVec.ofInt_natCast, BitVec.ofNat_toNat, BitVec.setWidth_eq] at h
  rw [← h]
  unfold wrapTo
  norm_cast

theorem tyW_le (t : Ty) : tyW t ≤ 64 := by unfold tyW; split <;> decide

/-- A type's width leaves the 16 bits of S[B] that hold the position and the length (R92). -/
theorem mod_tyW_mod (t : Ty) (b : Nat) : b % 2 ^ tyW t % 2 ^ 16 = b % 2 ^ 16 :=
  Nat.mod_mod_of_dvd b (Nat.pow_dvd_pow 2 (by unfold tyW; split <;> decide))

theorem field_pos_eq (t : Ty) (b : Nat) : b % 2 ^ tyW t % 256 = b % 256 := by
  have := mod_tyW_mod t b; omega

theorem field_len_eq (t : Ty) (b : Nat) : b % 2 ^ tyW t / 256 % 256 = b / 256 % 256 := by
  have := mod_tyW_mod t b; omega

/-! Extraction. -/

theorem extendTo_zero (t : Ty) : extendTo t 0 = 0 := by
  unfold extendTo
  split
  · decide
  · simp

/-- The extracted field is wrapped to the type, so it extends as the exact signed or unsigned value (R90, R92). -/
theorem extendTo_bfx (t : Ty) (a b : W64) :
    extendTo t (bfx t.isSigned (tyW t) (a.toNat % 2 ^ tyW t) (b.toNat % 2 ^ tyW t)) =
      (let pos := min (b.toNat % 256) (tyW t)
       let len := min (b.toNat / 256 % 256) (tyW t - pos)
       let x := a.toNat % 2 ^ tyW t / 2 ^ pos % 2 ^ len
       if len = 0 then 0
       else resultIn t false (if t.isSigned ∧ 2 ^ (len - 1) ≤ x then (x : Int) - 2 ^ len else x)) := by
  unfold bfx
  rw [field_pos_eq, field_len_eq, Nat.mod_mod]
  dsimp only
  split
  · exact extendTo_zero t
  · rw [extendTo_wrapTo]
    simp [resultIn, intOf]

/-! Insertion. -/

/-- Bits outside a mask and bits inside it add without a carry. -/
theorem toNat_sub_and_add_and {w : Nat} (c x m : BitVec w) :
    c.toNat - (c.toNat &&& m.toNat) + (x.toNat &&& m.toNat) = ((c &&& ~~~m) ||| (x &&& m)).toNat := by
  have disjoint : ∀ y : BitVec w, (c &&& ~~~m) &&& (y &&& m) = 0#w := by
    intro y; ext i hi; cases hm : m[i] <;> simp [hm]
  have whole : (c &&& ~~~m) ||| (c &&& m) = c := by
    ext i hi; cases hm : m[i] <;> simp [hm]
  have hc := BitVec.toNat_add_of_and_eq_zero (disjoint c)
  have hx := BitVec.toNat_add_of_and_eq_zero (disjoint x)
  rw [BitVec.add_eq_or_of_and_eq_zero _ _ (disjoint c), whole] at hc
  rw [BitVec.add_eq_or_of_and_eq_zero _ _ (disjoint x)] at hx
  rw [hx, ← BitVec.toNat_and, ← BitVec.toNat_and]
  omega

/-- Insertion under the low w bits of a mask is the low part of the insertion into the whole register. -/
theorem insert_low {w : Nat} (hw : w ≤ 64) (c x m : W64) :
    c.toNat % 2 ^ w - (c.toNat % 2 ^ w &&& m.toNat % 2 ^ w) + (x.toNat % 2 ^ w &&& m.toNat % 2 ^ w) =
      ((c &&& ~~~m) ||| (x &&& m)).toNat % 2 ^ w := by
  simp only [← BitVec.toNat_setWidth]
  rw [toNat_sub_and_add_and, BitVec.setWidth_or, BitVec.setWidth_and, BitVec.setWidth_and, BitVec.setWidth_not hw]

/-- The mask of R92 as a number. -/
theorem ofNat_field_mask (len pos : Nat) : BitVec.ofNat 64 ((2 ^ len - 1) * 2 ^ pos) = ((1#64 <<< len) - 1) <<< pos := by
  have ones : BitVec.ofNat 64 (2 ^ len - 1) = (1#64 <<< len) - 1 := by
    rw [← BitVec.ofNat_sub_ofNat_of_le _ _ (by decide) Nat.one_le_two_pow]
    congr 1
    exact BitVec.eq_of_toNat_eq (by simp [Nat.shiftLeft_eq])
  rw [← ones]
  exact BitVec.eq_of_toNat_eq (by simp [Nat.shiftLeft_eq])

/-- A field that ends within w bits has its mask within w bits. -/
theorem field_mask_lt {w pos len : Nat} (h : pos + len ≤ w) : (2 ^ len - 1) * 2 ^ pos < 2 ^ w :=
  calc (2 ^ len - 1) * 2 ^ pos < 2 ^ len * 2 ^ pos :=
        Nat.mul_lt_mul_of_pos_right (Nat.sub_lt (Nat.two_pow_pos _) Nat.one_pos) (Nat.two_pow_pos _)
    _ = 2 ^ (pos + len) := by rw [Nat.pow_add, Nat.mul_comm]
    _ ≤ 2 ^ w := Nat.pow_le_pow_right (by decide) h

theorem field_mask_low {w pos len : Nat} (hw : w ≤ 64) (h : pos + len ≤ w) :
    (((1#64 <<< len) - 1) <<< pos).toNat % 2 ^ w = (2 ^ len - 1) * 2 ^ pos := by
  rw [← ofNat_field_mask, BitVec.toNat_ofNat, Nat.mod_eq_of_lt (field_mask_lt (h.trans hw)), Nat.mod_eq_of_lt (field_mask_lt h)]

theorem shiftLeft_low {w : Nat} (hw : w ≤ 64) (a : W64) (n : Nat) :
    (a <<< n).toNat % 2 ^ w = a.toNat % 2 ^ w * 2 ^ n % 2 ^ w := by
  rw [BitVec.toNat_shiftLeft, Nat.shiftLeft_eq, Nat.mod_mod_of_dvd _ (Nat.pow_dvd_pow 2 hw), Nat.mod_mul_mod]

/-- The inserted field at a type's width extends as the insertion into the whole register does (R90, R92). -/
theorem extendTo_bfi (t : Ty) (a b c : W64) :
    extendTo t (bfi (tyW t) (a.toNat % 2 ^ tyW t) (b.toNat % 2 ^ tyW t) (c.toNat % 2 ^ tyW t)) =
      (let pos := min (b.toNat % 256) (tyW t)
       let len := min (b.toNat / 256 % 256) (tyW t - pos)
       let mask : W64 := ((1#64 <<< len) - 1) <<< pos
       extendIn t ((c &&& ~~~mask) ||| ((a <<< pos) &&& mask))) := by
  unfold bfi
  rw [field_pos_eq, field_len_eq, Nat.mod_mod]
  dsimp only
  rw [← shiftLeft_low (tyW_le t), ← field_mask_low (tyW_le t) (by omega), insert_low (tyW_le t), extendTo_low]

end Sys2Proof.Machine

open Sys2Proof Sys2Proof.Machine

/-- Settles O2: past the gate both forms write one scalar register per warp, and the field's clamps keep it within the type's width, where
the model's numbers and the register's bits agree. -/
theorem scalarFields : Obligations.ScalarFields := fun f =>
  ⟨setsScalar_of_scalarForm (exec_sbfx f) namesScalars_of_wf_sbfx (fun _ _ => extendTo_bfx ..),
   setsScalar_of_scalarForm (exec_sbfi f) namesScalars_of_wf_sbfi (fun _ _ => extendTo_bfi ..)⟩

end

section
/-!
PROOF of O25 (R224): TRAP traps every active thread with SOFTWARE and SEL, each to resume after it.
-/
namespace Sys2Proof.Machine

/-- Past its gate TRAP changes nothing itself: each active thread's trap is delivered, and no latch is left (R224). -/
theorem exec_trap {f : Yf} {s : State} {gid : Nat} {g : Group} (h : s.clear (.trap f) f.g gid g = true) :
    exec (.trap f) s = .next (s.finish gid [] ((s.active g f.g).map (fun th =>
      { th := th, code := 0x0F, info := f.sel.setWidth 64, rpc := g.after, entry := none }))) := by
  change execTrap f s = _
  unfold execTrap
  rw [issue_clear h]
  rfl

/-- TRAP's fields besides SEL are zero (R224). -/
theorem trap_fields_of_wf {f : Yf} (h : (Instr.trap f).wf = true) : f.d = 0 ∧ f.a = 0 ∧ f.ymod = 0 := by
  simp only [Instr.wf, Instr.fieldsOk, Bool.and_eq_true, beq_iff_eq] at h
  obtain ⟨⟨⟨⟨hd, ha⟩, hymod⟩, _⟩, _⟩ := h
  exact ⟨hd, ha, hymod⟩

end Sys2Proof.Machine

open Sys2Proof Sys2Proof.Machine

/-- Settles O25: past the gate the effect of TRAP is its traps alone; the word is decoded by evaluation. -/
theorem softwareTrap : Obligations.SoftwareTrap :=
  ⟨fun _ _ _ _ _ hc => exec_trap hc, fun _ hw => trap_fields_of_wf hw, by decide⟩

end

section
/-!
PROOF of O38 (R220): BOOSTQ writes one reading of the boost state to each warp, and a warp's write changes no other warp's reading.
-/
namespace Sys2Proof.Machine

/-! Past the gate. -/

/-- A form that only traps takes every active thread, past a clear gate. -/
theorem trapAll_clear {s : State} {i : Instr} {gd : Guard} {gid : Nat} {g : Group} (h : s.clear i gd gid g = true) (code : Nat) :
    trapAll i gd s code =
      .next (s.finish gid (s.latches i g) ((s.active g gd).map (fun th => s.trapOf i g th code))) :=
  issue_clear h _

/-- What BOOSTQ reads for a cluster and a team (R220). -/
def State.boostReading (s : State) (clus tk sel : Nat) : W64 :=
  match sel with
  | 0 => BitVec.ofNat 64 ((s.cluster clus).permits % 256 + 256 * (s.levelOf clus % 32))
  | 1 => s.csrGet (0x1010 + 0x100 * s.partOfTeam tk)
  | 2 => s.csrGet (0x1011 + 0x100 * s.partOfTeam tk)
  | _ => BitVec.ofNat 64 (((s.cluster clus).lease.map Lease.left).getD 0)

/-- No scalar register is part of the boost state. -/
theorem boostReading_of_onlyScalars {s t : State} (h : onlyScalars s t) (clus tk sel : Nat) :
    t.boostReading clus tk sel = s.boostReading clus tk sel := by
  unfold onlyScalars at h
  rw [h]
  rfl

/-- Outside a DET context BOOSTQ writes its reading in each warp that has an active thread. -/
theorem exec_boostq {f : Yf} {s : State} {gid : Nat} {g : Group} (h : s.clear (.boostq f) f.g gid g = true)
    (hdet : s.curCtx.det = false) :
    exec (.boostq f) s = .next (((s.warpsOf (s.active g f.g)).foldl (fun u wk =>
      u.sset wk f.d.toNat (u.boostReading (g.core / 4) g.team f.sel.toNat)) s).finish gid (s.latches (.boostq f) g) []) := by
  change execBoostq f s = _
  unfold execBoostq
  rw [hdet, if_neg Bool.false_ne_true, issue_clear h]
  rfl

/-- In a DET context BOOSTQ traps (R220). -/
theorem exec_boostq_det {f : Yf} {s : State} (hdet : s.curCtx.det = true) :
    exec (.boostq f) s = trapAll (.boostq f) f.g s 0x11 :=
  if_pos hdet

/-! Its fields. -/

theorem sel_le_of_wf_boostq {f : Yf} (h : (Instr.boostq f).wf = true) : f.sel.toNat ≤ 3 := by
  simp only [Instr.wf, Instr.fieldsOk, Bool.and_eq_true, decide_eq_true_eq] at h
  obtain ⟨⟨⟨⟨_, hsel⟩, _⟩, _⟩, _⟩ := h
  exact hsel

theorem d_lt_of_wf_boostq {f : Yf} (h : (Instr.boostq f).wf = true) : f.d.toNat < 64 := by
  simp only [Instr.wf, Instr.shape, Opnd.ok, List.all_cons, List.all_nil, Bool.and_eq_true, decide_eq_true_eq] at h
  obtain ⟨_, hd, _⟩ := h
  omega

/-- The SEL of a Y form is bits [35:20] of its word (R40). -/
theorem sel_of_parseYf {w : W64} {f : Yf} (h : parseYf w = some f) : f.sel = bits w 20 16 := by
  unfold parseYf at h
  cases hg : Guard.ofCode (bits w 52 4) with
  | none => simp [hg] at h
  | some g =>
    simp only [hg, Option.bind_eq_bind, Option.bind_some, Option.pure_def] at h
    split at h
    · cases h; rfl
    · cases h

/-- A word with BOOSTQ's opcode is a well-formed BOOSTQ or no instruction (R46, R49). -/
theorem decodeWord_boostq {w : W64} (h : bits w 56 8 = 0xF8) :
    decodeWord w = match parseYf w with
      | none => .error .encoding
      | some f => if (Instr.boostq f).wf then .ok (.boostq f) else .error .encoding := by
  have hop : opTable.lookup (opcodeOf w) = some (fun w => (parseYf w).map .boostq) := by
    rw [opcodeOf, h]; rfl
  unfold decodeWord
  rw [hop]
  dsimp only
  cases parseYf w <;> rfl

/-- A SEL from 4 up raises ENCODING (R220). -/
theorem decodeWord_boostq_error {w : W64} (h : bits w 56 8 = 0xF8) (hsel : 4 ≤ (bits w 20 16).toNat) :
    decodeWord w = .error .encoding := by
  rw [decodeWord_boostq h]
  cases hp : parseYf w with
  | none => rfl
  | some f =>
    refine if_neg fun hw => ?_
    have hle := sel_le_of_wf_boostq hw
    rw [sel_of_parseYf hp] at hle
    omega

/-- A register field names sz as a number or as a field (R39). -/
theorem toNat_eq_63_iff (d : RegField) : d.toNat = 63 ↔ d = 63 := (BitVec.toNat_inj (y := 63#8))

end Sys2Proof.Machine

open Sys2Proof Sys2Proof.Machine

/-- Settles O38: the law of a scalar register written in each warp, whose premise holds since no such write changes the boost state. -/
theorem boostQueries : Obligations.BoostQueries := by
  refine fun f => ⟨sel_le_of_wf_boostq, fun _ => decodeWord_boostq_error, ?_, ?_⟩
  · intro s gid g hw hc hdet
    obtain ⟨hset, hkeep, honly⟩ := fold_sset (d_lt_of_wf_boostq hw)
      (F := fun u _ => u.boostReading (g.core / 4) g.team f.sel.toNat)
      (fun u _ wk' x _ => boostReading_of_onlyScalars (sset_only u wk' _ x) ..)
      (s.warpsOf (s.active g f.g)) s (warpsOf_nodup _ _)
    simp only [toNat_eq_63_iff] at hset
    exact ⟨_, exec_boostq hc hdet, hset, hkeep, honly⟩
  · intro s gid g _ hc hdet
    rw [exec_boostq_det hdet, trapAll_clear hc]

end
